-- ==== Sys2Proof/Word.lean ====
section
/-! DEFINITION. The widths of the port fields (30_encoding.md R60, R61). -/

namespace Sys2Proof

/-- A 64-bit field of a port: an operand or a result (R60, R61). -/
abbrev Word := BitVec 64

/-- The 16-bit command word of a request (R60). -/
abbrev Command := BitVec 16

end Sys2Proof
end

