-- ==== Sys2Proof/Syntax.lean ====
section
/-! DEFINITION. The request and response words, the formats, the names of statuses and causes, and the
44 instructions: one constructor per row of spec/opcode_table.json (30_encoding.md R60 to R66). -/

namespace Sys2Proof

/-- The request word (R60). -/
structure Request where
  cmd : Command
  a : Word
  b : Word
  deriving DecidableEq, Repr

/-- The response word (R61). -/
structure Response where
  status : BitVec 2
  r0 : Word
  r1 : Word
  deriving DecidableEq, Repr

/-- The unsigned formats (R2, R62). -/
inductive UFmt where
  | u8 | u16 | u32 | u64
  deriving DecidableEq, Repr

/-- The container width `cw`, which is also the pattern width W (R62). -/
def UFmt.width : UFmt → Nat
  | .u8 => 8
  | .u16 => 16
  | .u32 => 32
  | .u64 => 64

/-- The five formats (R62). -/
inductive Format where
  | unsigned (f : UFmt)
  | i8
  deriving DecidableEq, Repr

/-- The sixteen operations (R66). -/
inductive Operation where
  | dec | encInt | encFlt | cmp
  | parent | lchild | rchild | children | sibling | isleaf
  | inv | invChk | invUnchk
  | widen | narrow | narrowLossy
  deriving DecidableEq, Repr

/-- The four outcomes of a request (60_exceptions.md R175). -/
inductive Status where
  | ok | none | domainError | fault
  deriving DecidableEq, Repr

/-- The causes of a DOMAIN_ERROR (60_exceptions.md R176). -/
inductive DomainCause where
  | intTooLarge | fltNegative | fltInfinite | fltNan | precisionLoss
  deriving DecidableEq, Repr

/-- The causes of a FAULT response (60_exceptions.md R177). -/
inductive FaultCause where
  | invertZero | illegalOp | illegalFmt | reservedNonzero | operandRange | invalidPattern
  deriving DecidableEq, Repr

/-- An instruction: one opcode in one format (00_scope.md, glossary "operation"). Operands stand on the
ports, not in the command (30_encoding.md section 5: "There are no immediates"). -/
inductive Instr where
  | decU (f : UFmt)
  | decI8
  | encIntU (f : UFmt)
  | encIntI8
  | encFltU (f : UFmt)
  | encFltI8
  | cmpU (f : UFmt)
  | cmpI8
  | parentU (f : UFmt)
  | parentI8
  | lchildU (f : UFmt)
  | lchildI8
  | rchildU (f : UFmt)
  | rchildI8
  | childrenU (f : UFmt)
  | childrenI8
  | siblingU (f : UFmt)
  | siblingI8
  | isleafU (f : UFmt)
  | isleafI8
  | invU (f : UFmt)
  | invI8
  | invChkU (f : UFmt)
  | invChkI8
  | invUnchkU (f : UFmt)
  | invUnchkI8
  | widenU8U16
  | widenU8U32
  | widenU8U64
  | widenU16U32
  | widenU16U64
  | widenU32U64
  | narrowU16U8
  | narrowU32U8
  | narrowU32U16
  | narrowU64U8
  | narrowU64U16
  | narrowU64U32
  | narrowLossyU16U8
  | narrowLossyU32U8
  | narrowLossyU32U16
  | narrowLossyU64U8
  | narrowLossyU64U16
  | narrowLossyU64U32
  deriving DecidableEq, Repr

end Sys2Proof
end

