-- ==== Sys2Proof/Decode.lean ====
section
/-! DEFINITION. The decoder of the command word, total and refusing by the cause of 60_exceptions.md R177
in the order of R179 (steps 1 to 3), and the encoder (30_encoding.md R60, R62, R66). -/

namespace Sys2Proof

/-! ### Fields of the command word (R60) -/

/-- `op = cmd[4:0]` (R60). -/
def cmdOp (w : Command) : BitVec 5 := w.extractLsb' 0 5

/-- `fmt = cmd[7:5]` (R60). -/
def cmdFmt (w : Command) : BitVec 3 := w.extractLsb' 5 3

/-- `fmt2 = cmd[10:8]` (R60). -/
def cmdFmt2 (w : Command) : BitVec 3 := w.extractLsb' 8 3

/-- `rsv = cmd[15:11]` (R60). -/
def cmdRsv (w : Command) : BitVec 5 := w.extractLsb' 11 5

/-- `cmd` from its fields (R60). -/
def packCommand (rsv : BitVec 5) (fmt2 fmt : BitVec 3) (op : BitVec 5) : Command :=
  rsv ++ fmt2 ++ fmt ++ op

/-! ### Codes -/

/-- The opcode numbers (R66). -/
def Operation.code : Operation → BitVec 5
  | .dec => 0x01
  | .encInt => 0x02
  | .encFlt => 0x03
  | .cmp => 0x04
  | .parent => 0x08
  | .lchild => 0x09
  | .rchild => 0x0A
  | .children => 0x0B
  | .sibling => 0x0C
  | .isleaf => 0x0D
  | .inv => 0x10
  | .invChk => 0x11
  | .invUnchk => 0x12
  | .widen => 0x18
  | .narrow => 0x19
  | .narrowLossy => 0x1A

/-- The operation an opcode selects; none for the reserved numbers (R66, R67). -/
def operationOf (c : BitVec 5) : Option Operation :=
  match c.toNat with
  | 0x01 => some .dec
  | 0x02 => some .encInt
  | 0x03 => some .encFlt
  | 0x04 => some .cmp
  | 0x08 => some .parent
  | 0x09 => some .lchild
  | 0x0A => some .rchild
  | 0x0B => some .children
  | 0x0C => some .sibling
  | 0x0D => some .isleaf
  | 0x10 => some .inv
  | 0x11 => some .invChk
  | 0x12 => some .invUnchk
  | 0x18 => some .widen
  | 0x19 => some .narrow
  | 0x1A => some .narrowLossy
  | _ => none

/-- The code of an unsigned format (R62). -/
def UFmt.code : UFmt → BitVec 3
  | .u8 => 0
  | .u16 => 1
  | .u32 => 2
  | .u64 => 3

/-- The code of a format (R62). -/
def Format.code : Format → BitVec 3
  | .unsigned f => f.code
  | .i8 => 4

/-- The format a code names; none for the reserved codes (R62). -/
def formatOf (c : BitVec 3) : Option Format :=
  match c.toNat with
  | 0 => some (.unsigned .u8)
  | 1 => some (.unsigned .u16)
  | 2 => some (.unsigned .u32)
  | 3 => some (.unsigned .u64)
  | 4 => some .i8
  | _ => none

/-- The operation is one of the three conversions, which alone use `fmt2` (R60, R66). -/
def Operation.converts : Operation → Bool
  | .widen | .narrow | .narrowLossy => true
  | _ => false

/-! ### Selecting the instruction -/

/-- The legal pairs of `WIDEN` (46_convert.md R166). -/
def widenOf : UFmt → UFmt → Option Instr
  | .u8, .u16 => some .widenU8U16
  | .u8, .u32 => some .widenU8U32
  | .u8, .u64 => some .widenU8U64
  | .u16, .u32 => some .widenU16U32
  | .u16, .u64 => some .widenU16U64
  | .u32, .u64 => some .widenU32U64
  | _, _ => none

/-- The legal pairs of `NARROW` (46_convert.md R166). -/
def narrowOf : UFmt → UFmt → Option Instr
  | .u16, .u8 => some .narrowU16U8
  | .u32, .u8 => some .narrowU32U8
  | .u64, .u8 => some .narrowU64U8
  | .u32, .u16 => some .narrowU32U16
  | .u64, .u16 => some .narrowU64U16
  | .u64, .u32 => some .narrowU64U32
  | _, _ => none

/-- The legal pairs of `NARROW_LOSSY` (46_convert.md R166). -/
def narrowLossyOf : UFmt → UFmt → Option Instr
  | .u16, .u8 => some .narrowLossyU16U8
  | .u32, .u8 => some .narrowLossyU32U8
  | .u64, .u8 => some .narrowLossyU64U8
  | .u32, .u16 => some .narrowLossyU32U16
  | .u64, .u16 => some .narrowLossyU64U16
  | .u64, .u32 => some .narrowLossyU64U32
  | _, _ => none

/-- A conversion needs two unsigned formats (46_convert.md R166). -/
def convertOf (table : UFmt → UFmt → Option Instr) : Format → Option Format → Option Instr
  | .unsigned fs, some (.unsigned ft) => table fs ft
  | _, _ => none

/-- The instruction of an operation in a format: the unsigned row or the `I8` row of the table (R66). -/
def rowOf (unsigned : UFmt → Instr) (signed : Instr) : Format → Option Instr
  | .unsigned f => some (unsigned f)
  | .i8 => some signed

/-- The instruction an operation is in the formats `fmt` and `fmt2`; none where R68 makes the format
illegal. Outside the conversions `fmt2` selects nothing. -/
def instrOf (op : Operation) (fmt : Format) (fmt2 : Option Format) : Option Instr :=
  match op with
  | .dec => rowOf .decU .decI8 fmt
  | .encInt => rowOf .encIntU .encIntI8 fmt
  | .encFlt => rowOf .encFltU .encFltI8 fmt
  | .cmp => rowOf .cmpU .cmpI8 fmt
  | .parent => rowOf .parentU .parentI8 fmt
  | .lchild => rowOf .lchildU .lchildI8 fmt
  | .rchild => rowOf .rchildU .rchildI8 fmt
  | .children => rowOf .childrenU .childrenI8 fmt
  | .sibling => rowOf .siblingU .siblingI8 fmt
  | .isleaf => rowOf .isleafU .isleafI8 fmt
  | .inv => rowOf .invU .invI8 fmt
  | .invChk => rowOf .invChkU .invChkI8 fmt
  | .invUnchk => rowOf .invUnchkU .invUnchkI8 fmt
  | .widen => convertOf widenOf fmt fmt2
  | .narrow => convertOf narrowOf fmt fmt2
  | .narrowLossy => convertOf narrowLossyOf fmt fmt2

/-- The reserved bits of a command that selects `op` are zero (R65). -/
def reservedZero (op : Operation) (w : Command) : Bool :=
  cmdRsv w == 0 && (op.converts || cmdFmt2 w == 0)

/-- The decoder: the instruction of a command word, or the cause of its FAULT response, in the order of
60_exceptions.md R179 (steps 1, 2 and the command's part of 3). -/
def decode (w : Command) : Except FaultCause Instr :=
  match operationOf (cmdOp w) with
  | none => .error .illegalOp
  | some op =>
    match (formatOf (cmdFmt w)).bind (instrOf op · (formatOf (cmdFmt2 w))) with
    | none => .error .illegalFmt
    | some i => if reservedZero op w then .ok i else .error .reservedNonzero

/-! ### The encoder -/

/-- The command of an operation in one format: `fmt2` and `rsv` are zero (R66). -/
def encodeOne (op : Operation) (f : Format) : Command := packCommand 0 0 f.code op.code

/-- The command of a conversion: `(fmt2 << 8) | (fmt << 5) | op` (R66, 46_convert.md R166). -/
def encodeConversion (op : Operation) (fs ft : UFmt) : Command :=
  packCommand 0 ft.code fs.code op.code

/-- The command word of an instruction (R60, R66). -/
def encode : Instr → Command
  | .decU f => encodeOne .dec (.unsigned f)
  | .decI8 => encodeOne .dec .i8
  | .encIntU f => encodeOne .encInt (.unsigned f)
  | .encIntI8 => encodeOne .encInt .i8
  | .encFltU f => encodeOne .encFlt (.unsigned f)
  | .encFltI8 => encodeOne .encFlt .i8
  | .cmpU f => encodeOne .cmp (.unsigned f)
  | .cmpI8 => encodeOne .cmp .i8
  | .parentU f => encodeOne .parent (.unsigned f)
  | .parentI8 => encodeOne .parent .i8
  | .lchildU f => encodeOne .lchild (.unsigned f)
  | .lchildI8 => encodeOne .lchild .i8
  | .rchildU f => encodeOne .rchild (.unsigned f)
  | .rchildI8 => encodeOne .rchild .i8
  | .childrenU f => encodeOne .children (.unsigned f)
  | .childrenI8 => encodeOne .children .i8
  | .siblingU f => encodeOne .sibling (.unsigned f)
  | .siblingI8 => encodeOne .sibling .i8
  | .isleafU f => encodeOne .isleaf (.unsigned f)
  | .isleafI8 => encodeOne .isleaf .i8
  | .invU f => encodeOne .inv (.unsigned f)
  | .invI8 => encodeOne .inv .i8
  | .invChkU f => encodeOne .invChk (.unsigned f)
  | .invChkI8 => encodeOne .invChk .i8
  | .invUnchkU f => encodeOne .invUnchk (.unsigned f)
  | .invUnchkI8 => encodeOne .invUnchk .i8
  | .widenU8U16 => encodeConversion .widen .u8 .u16
  | .widenU8U32 => encodeConversion .widen .u8 .u32
  | .widenU8U64 => encodeConversion .widen .u8 .u64
  | .widenU16U32 => encodeConversion .widen .u16 .u32
  | .widenU16U64 => encodeConversion .widen .u16 .u64
  | .widenU32U64 => encodeConversion .widen .u32 .u64
  | .narrowU16U8 => encodeConversion .narrow .u16 .u8
  | .narrowU32U8 => encodeConversion .narrow .u32 .u8
  | .narrowU32U16 => encodeConversion .narrow .u32 .u16
  | .narrowU64U8 => encodeConversion .narrow .u64 .u8
  | .narrowU64U16 => encodeConversion .narrow .u64 .u16
  | .narrowU64U32 => encodeConversion .narrow .u64 .u32
  | .narrowLossyU16U8 => encodeConversion .narrowLossy .u16 .u8
  | .narrowLossyU32U8 => encodeConversion .narrowLossy .u32 .u8
  | .narrowLossyU32U16 => encodeConversion .narrowLossy .u32 .u16
  | .narrowLossyU64U8 => encodeConversion .narrowLossy .u64 .u8
  | .narrowLossyU64U16 => encodeConversion .narrowLossy .u64 .u16
  | .narrowLossyU64U32 => encodeConversion .narrowLossy .u64 .u32

/-! ### The whole request as one number -/

/-- The request whose bits are the low `nbits` bits of `w`: `cmd` is bits 15:0, `a` bits 79:16, `b` bits
143:80, and every bit from `nbits` on is zero (log 7). -/
def requestOfBits (nbits w : Nat) : Request :=
  let v := w % 2 ^ nbits
  { cmd := BitVec.ofNat 16 v, a := BitVec.ofNat 64 (v >>> 16), b := BitVec.ofNat 64 (v >>> 80) }

/-- The instruction the decoder reads from an instruction whose bits are `w`, none where it refuses. -/
def decodeTableWord (nbits w : Nat) : Option Instr :=
  (decode (requestOfBits nbits w).cmd).toOption

end Sys2Proof
end

