-- ==== Sys2Proof/Machine/Flags.lean ====
section
/-! DEFINITION. The block has no flags, condition codes or status register (10_state.md R22). What other
machines hold there is data of the response: the numbers of statuses and causes (60_exceptions.md R175 to
R177) and the code of a comparison (30_encoding.md R64, 42_compare.md R111). -/

namespace Sys2Proof.Machine

/-- The status codes (R175). -/
def statusCode : Status → BitVec 2
  | .ok => 0b00
  | .none => 0b01
  | .domainError => 0b10
  | .fault => 0b11

/-- The domain-error cause codes (R176). -/
def domainCode : DomainCause → BitVec 4
  | .intTooLarge => 0x1
  | .fltNegative => 0x2
  | .fltInfinite => 0x3
  | .fltNan => 0x4
  | .precisionLoss => 0x5

/-- The fault cause codes (R177). -/
def faultCode : FaultCause → BitVec 4
  | .invertZero => 0x1
  | .illegalOp => 0x2
  | .illegalFmt => 0x3
  | .reservedNonzero => 0x4
  | .operandRange => 0x5
  | .invalidPattern => 0x6

/-- The 2-bit code of an order: two's-complement −1, 0, +1 (R64, R111). -/
def orderCode : Ordering → BitVec 2
  | .lt => 0b11
  | .eq => 0b00
  | .gt => 0b01

end Sys2Proof.Machine
end

