-- ==== Sys2Proof/Machine/State.lean ====
section
/-! DEFINITION. The state of the machine: its two ports. 10_state.md R20 to R27 give the block no register,
counter, flag, memory or hidden state; what a step reads is the request word (R60) and what it writes is
the response word (R61) (log 4). -/

namespace Sys2Proof.Machine

/-- The reasons the machine could stop: none. Every one of the 2^144 request words has exactly one
response (30_encoding.md R69) and "Nothing in this block is `stuck`" (93_implementation_defined.md). A
FAULT of 60_exceptions.md R177 is a response, hence a next state (log 5). Safe: no run is cut short, and
the type being empty proves it. -/
inductive Fault where
  deriving DecidableEq, Repr

/-- The reasons an instruction has no meaning. -/
inductive Refusal where
  /-- Raised by `exec` for an instruction this model gives no meaning. No arm raises it. Safe. -/
  | notModelled (mnemonic : String)
  deriving DecidableEq, Repr

/-- The request port and the response port of one copy of the block. -/
structure State where
  req : Request
  rsp : Response
  deriving DecidableEq, Repr

/-- The machine after reset. The spec gives no reset value (R30, R195). The request port holds the all-zero
word (DESIGN CHOICE, log 1), and the response port shows `F(req)` for it, as R30 says of every time:
`FAULT(ILLEGAL_OP)` (R67) (log 2). -/
def State.reset : State where
  req := { cmd := 0, a := 0, b := 0 }
  rsp := { status := 0b11, r0 := 2, r1 := 0 }

end Sys2Proof.Machine
end

