-- ==== Sys2Proof/Machine/Ops.lean ====
section
/-! DEFINITION. The one operation every instruction ends in: showing a response. Raising a DOMAIN_ERROR or
a FAULT is the same operation (60_exceptions.md R180: "The response carries the status and the cause; that
is the whole effect"), and there is no return from one (R182). -/

namespace Sys2Proof.Machine

/-- The four outcomes of a request with what they carry: the `respond` and `raise` primitives of
00_scope.md R11. -/
inductive Answer where
  | ok (r0 r1 : Word)
  | none
  | domainError (c : DomainCause)
  | fault (c : FaultCause)
  deriving DecidableEq, Repr

/-- The response word of an outcome (R11, R61, R175): a cause stands in `r0[3:0]`, every other result bit
is zero. -/
def Answer.response : Answer → Response
  | .ok r0 r1 => { status := statusCode .ok, r0 := r0, r1 := r1 }
  | .none => { status := statusCode .none, r0 := 0, r1 := 0 }
  | .domainError c =>
    { status := statusCode .domainError, r0 := (domainCode c).setWidth 64, r1 := 0 }
  | .fault c => { status := statusCode .fault, r0 := (faultCode c).setWidth 64, r1 := 0 }

/-- Show a response: the response port takes it and nothing else changes (10_state.md R25,
60_exceptions.md R180). -/
def State.withResponse (s : State) (r : Response) : State := { s with rsp := r }

/-- End a request in an outcome. Every outcome is a next state: after it the block answers the next
request like any other (60_exceptions.md R181, log 5). -/
def State.answer (s : State) (ans : Answer) : Host.Outcome State Fault Refusal :=
  .next (s.withResponse ans.response)

/-- Refuse a command the decoder gives no instruction: the FAULT response of 30_encoding.md R65, R67, R68. -/
def State.refuse (s : State) (c : FaultCause) : Host.Outcome State Fault Refusal :=
  s.answer (.fault c)

/-- The host puts a request word on the request port (70_reset_and_hazards.md R199). -/
def State.present (s : State) (r : Request) : State := { s with req := r }

end Sys2Proof.Machine
end

