-- ==== Sys2Proof/Machine/Operands.lean ====
section
/-! DEFINITION. The five operand forms with their checks (30_encoding.md R63, R65; 45_signed.md R141) and
the six result forms (R64). Each operand form makes steps 3 to 5 of 60_exceptions.md R179 in order
(operand B, range, invalid pattern) and hands the operand to the operation's own rule. -/

namespace Sys2Proof.Machine

/-! ### Checks -/

/-- `v[63:cw] = 0`: no bit at or above the container width (R65). -/
def fits (cw : Nat) (v : Word) : Bool := v >>> cw == 0

/-- Step 3 of R179, the operand's part: `b` is zero, for every operation but `CMP` (R65, log 15). -/
def requireNoB (r : Request) (k : Answer) : Answer :=
  if r.b = 0#64 then k else .fault .reservedNonzero

/-- Step 4 of R179: a narrow operand has no bit at or above its container width (R65). -/
def requireFits (cw : Nat) (v : Word) (k : Answer) : Answer :=
  if fits cw v then k else .fault .operandRange

/-- Step 5 of R179: an `I8` pattern is not `0x80` (R55, R141). -/
def requireValid (x : BitVec 8) (k : Answer) : Answer :=
  if x = 0x80#8 then .fault .invalidPattern else k

/-! ### Operand forms (R63) -/

/-- `PAT` in an unsigned format of width `w`. -/
def withPattern (w : Nat) (r : Request) (k : BitVec w → Answer) : Answer :=
  requireNoB r (requireFits w r.a (k (r.a.setWidth w)))

/-- `PAT` and `PAT_B` in an unsigned format of width `w`: only `CMP` has them, so `b` may be nonzero. -/
def withPatterns (w : Nat) (r : Request) (k : BitVec w → BitVec w → Answer) : Answer :=
  requireFits w r.a (requireFits w r.b (k (r.a.setWidth w) (r.b.setWidth w)))

/-- The sign `x[7]` of an `I8` pattern (R54). -/
def signOf (x : BitVec 8) : Bool := x.getLsbD 7

/-- The magnitude `x[6:0]` of an `I8` pattern (R54). -/
def magnitudeOf (x : BitVec 8) : BitVec 7 := x.extractLsb' 0 7

/-- `PAT` in `I8`, as its sign and magnitude (R54, R141). -/
def withSigned (r : Request) (k : Bool → BitVec 7 → Answer) : Answer :=
  requireNoB r (requireFits 8 r.a
    (requireValid (r.a.setWidth 8) (k (signOf (r.a.setWidth 8)) (magnitudeOf (r.a.setWidth 8)))))

/-- `PAT` and `PAT_B` in `I8`, as two containers (R141, R145). -/
def withSignedPair (r : Request) (k : BitVec 8 → BitVec 8 → Answer) : Answer :=
  requireFits 8 r.a (requireFits 8 r.b
    (requireValid (r.a.setWidth 8) (requireValid (r.b.setWidth 8)
      (k (r.a.setWidth 8) (r.b.setWidth 8)))))

/-- `UINT64`: every bit is significant. -/
def withUint64 (r : Request) (k : Nat → Answer) : Answer := requireNoB r (k r.a.toNat)

/-- `SINT8`: an 8-bit two's-complement integer. -/
def withSint8 (r : Request) (k : Int → Answer) : Answer :=
  requireNoB r (requireFits 8 r.a (k (r.a.setWidth 8).toInt))

/-- `F64`: a binary64 image; every bit is significant. -/
def withFloat (r : Request) (k : Word → Answer) : Answer := requireNoB r (k r.a)

/-! ### Result forms (R64) -/

/-- `PAT`: a pattern zero-extended. -/
def okPattern {w : Nat} (x : BitVec w) : Answer := .ok (x.setWidth 64) 0

/-- `PAT` or NONE: the document's optional result (60_exceptions.md R178). -/
def okPattern? {w : Nat} : Option (BitVec w) → Answer
  | some x => okPattern x
  | none => .none

/-- `PAT_PAIR` or NONE. -/
def okPair? {w : Nat} : Option (BitVec w × BitVec w) → Answer
  | some (x, y) => .ok (x.setWidth 64) (y.setWidth 64)
  | none => .none

/-- `FRAC`: numerator and denominator. -/
def okFrac (n d : Nat) : Answer := .ok (BitVec.ofNat 64 n) (BitVec.ofNat 64 d)

/-- `SFRAC`: the signed numerator in 8 bits of two's complement, upper bits zero, and the denominator
(45_signed.md R142). -/
def okSignedFrac (negative : Bool) (n d : Nat) : Answer :=
  let num8 := if negative then BitVec.ofNat 8 (256 - n) else BitVec.ofNat 8 n
  .ok (num8.setWidth 64) (BitVec.ofNat 64 d)

/-- `ORD`: the 2-bit order code. -/
def okOrder (o : Ordering) : Answer := .ok ((orderCode o).setWidth 64) 0

/-- `BOOL`: 1 or 0. -/
def okBool (p : Bool) : Answer := .ok ((BitVec.ofBool p).setWidth 64) 0

/-- An `I8` pattern from sign and magnitude: `(s << 7) | m` (R54). -/
def packSigned (negative : Bool) (m : BitVec 7) : BitVec 8 := BitVec.cons negative m

end Sys2Proof.Machine
end

