-- ==== Sys2Proof/Machine/Comparator.lean ====
section
/-! DEFINITION. `CMP` (42_compare.md R110, R111; 45_signed.md R145). -/

namespace Sys2Proof.Machine

/-- `ucmp`: the unsigned comparison of two patterns (R111). -/
def ucmp {w : Nat} (x y : BitVec w) : Ordering := compare x.toNat y.toNat

/-- The order of two `I8` patterns: signs first, the magnitude order reversed when both are negative
(R145). -/
def scmp (x y : BitVec 8) : Ordering :=
  match signOf x, signOf y with
  | false, false => ucmp (magnitudeOf x) (magnitudeOf y)
  | true, false => .lt
  | false, true => .gt
  | true, true => ucmp (magnitudeOf y) (magnitudeOf x)

/-- `CMP.U*` (R110). -/
def execCmpU (f : UFmt) (s : State) : Host.Outcome State Fault Refusal :=
  s.answer (withPatterns f.width s.req fun x y => okOrder (ucmp x y))

/-- `CMP.I8` (R145). -/
def execCmpI8 (s : State) : Host.Outcome State Fault Refusal :=
  s.answer (withSignedPair s.req fun x y => okOrder (scmp x y))

end Sys2Proof.Machine
end

