-- ==== Sys2Proof/Machine/Convert.lean ====
section
/-! DEFINITION. `WIDEN`, `NARROW`, `NARROW_LOSSY` (46_convert.md R165 to R169): the three shared operations
over a source and a target format, and one definition per legal pair (R166). -/

namespace Sys2Proof.Machine

/-- Widening: the zero-extended pattern shifted left by `Wt − Ws` (R167). -/
def widenPattern {ws : Nat} (wt : Nat) (x : BitVec ws) : BitVec wt := x.setWidth wt <<< (wt - ws)

/-- The pattern shifted right by `Ws − Wt`, in the target width (R168, R169). -/
def dropLow {ws : Nat} (wt : Nat) (x : BitVec ws) : BitVec wt := (x >>> (ws - wt)).setWidth wt

/-- The low `Ws − Wt` bits, which a narrowing discards, are zero (R168, R169). -/
def lowClear {ws : Nat} (wt : Nat) (x : BitVec ws) : Bool := x.extractLsb' 0 (ws - wt) == 0

/-- Lossy narrowing: a marker is forced at bit 0 where the marker was discarded (R169). -/
def narrowLossyPattern {ws : Nat} (wt : Nat) (x : BitVec ws) : BitVec wt :=
  if lowClear wt x then dropLow wt x else dropLow wt x ||| 1

/-- `WIDEN` between two formats (R167). -/
def widenAnswer (fs ft : UFmt) (r : Request) : Answer :=
  withPattern fs.width r fun x => okPattern (widenPattern ft.width x)

/-- `NARROW` between two formats: a domain error when a discarded bit is set (R168). -/
def narrowAnswer (fs ft : UFmt) (r : Request) : Answer :=
  withPattern fs.width r fun x =>
    if lowClear ft.width x then okPattern (dropLow ft.width x) else .domainError .precisionLoss

/-- `NARROW_LOSSY` between two formats (R169). -/
def narrowLossyAnswer (fs ft : UFmt) (r : Request) : Answer :=
  withPattern fs.width r fun x => okPattern (narrowLossyPattern ft.width x)

/-! ### `WIDEN` -/

/-- `WIDEN.U8.U16` (R167). -/
def execWidenU8U16 (s : State) : Host.Outcome State Fault Refusal :=
  s.answer (widenAnswer .u8 .u16 s.req)

/-- `WIDEN.U8.U32` (R167). -/
def execWidenU8U32 (s : State) : Host.Outcome State Fault Refusal :=
  s.answer (widenAnswer .u8 .u32 s.req)

/-- `WIDEN.U8.U64` (R167). -/
def execWidenU8U64 (s : State) : Host.Outcome State Fault Refusal :=
  s.answer (widenAnswer .u8 .u64 s.req)

/-- `WIDEN.U16.U32` (R167). -/
def execWidenU16U32 (s : State) : Host.Outcome State Fault Refusal :=
  s.answer (widenAnswer .u16 .u32 s.req)

/-- `WIDEN.U16.U64` (R167). -/
def execWidenU16U64 (s : State) : Host.Outcome State Fault Refusal :=
  s.answer (widenAnswer .u16 .u64 s.req)

/-- `WIDEN.U32.U64` (R167). -/
def execWidenU32U64 (s : State) : Host.Outcome State Fault Refusal :=
  s.answer (widenAnswer .u32 .u64 s.req)

/-! ### `NARROW` -/

/-- `NARROW.U16.U8` (R168). -/
def execNarrowU16U8 (s : State) : Host.Outcome State Fault Refusal :=
  s.answer (narrowAnswer .u16 .u8 s.req)

/-- `NARROW.U32.U8` (R168). -/
def execNarrowU32U8 (s : State) : Host.Outcome State Fault Refusal :=
  s.answer (narrowAnswer .u32 .u8 s.req)

/-- `NARROW.U32.U16` (R168). -/
def execNarrowU32U16 (s : State) : Host.Outcome State Fault Refusal :=
  s.answer (narrowAnswer .u32 .u16 s.req)

/-- `NARROW.U64.U8` (R168). -/
def execNarrowU64U8 (s : State) : Host.Outcome State Fault Refusal :=
  s.answer (narrowAnswer .u64 .u8 s.req)

/-- `NARROW.U64.U16` (R168). -/
def execNarrowU64U16 (s : State) : Host.Outcome State Fault Refusal :=
  s.answer (narrowAnswer .u64 .u16 s.req)

/-- `NARROW.U64.U32` (R168). -/
def execNarrowU64U32 (s : State) : Host.Outcome State Fault Refusal :=
  s.answer (narrowAnswer .u64 .u32 s.req)

/-! ### `NARROW_LOSSY` -/

/-- `NARROW_LOSSY.U16.U8` (R169). -/
def execNarrowLossyU16U8 (s : State) : Host.Outcome State Fault Refusal :=
  s.answer (narrowLossyAnswer .u16 .u8 s.req)

/-- `NARROW_LOSSY.U32.U8` (R169). -/
def execNarrowLossyU32U8 (s : State) : Host.Outcome State Fault Refusal :=
  s.answer (narrowLossyAnswer .u32 .u8 s.req)

/-- `NARROW_LOSSY.U32.U16` (R169). -/
def execNarrowLossyU32U16 (s : State) : Host.Outcome State Fault Refusal :=
  s.answer (narrowLossyAnswer .u32 .u16 s.req)

/-- `NARROW_LOSSY.U64.U8` (R169). -/
def execNarrowLossyU64U8 (s : State) : Host.Outcome State Fault Refusal :=
  s.answer (narrowLossyAnswer .u64 .u8 s.req)

/-- `NARROW_LOSSY.U64.U16` (R169). -/
def execNarrowLossyU64U16 (s : State) : Host.Outcome State Fault Refusal :=
  s.answer (narrowLossyAnswer .u64 .u16 s.req)

/-- `NARROW_LOSSY.U64.U32` (R169). -/
def execNarrowLossyU64U32 (s : State) : Host.Outcome State Fault Refusal :=
  s.answer (narrowLossyAnswer .u64 .u32 s.req)

end Sys2Proof.Machine
end

