-- ==== Sys2Proof/Machine/Tree.lean ====
section
/-! DEFINITION. The Stern–Brocot layout of a pattern and the decoder's walk down the tree
(00_scope.md R11, R12; 30_encoding.md R51; 40_decode.md R81). Everything is written for a general width,
as the spec writes it; the block uses 8, 16, 32, 64 and, for the `I8` magnitude, 7 (R6). -/

namespace Sys2Proof.Machine

/-! ### Marker, depth, path -/

/-- `tzcnt_W`: the index of the lowest set bit, W for zero (R11). -/
def tzcnt {w : Nat} (x : BitVec w) : Nat :=
  ((List.range w).find? fun i => x.getLsbD i).getD w

/-- `depth_W`, meant for `x ≠ 0` (R12). -/
def depth {w : Nat} (x : BitVec w) : Nat := w - 1 - tzcnt x

/-- `path_W`: bits W−1 down to marker+1, the first decision first; true is "toward the upper bound"
(R12, R51). -/
def pathBits {w : Nat} (x : BitVec w) : List Bool :=
  (List.range (depth x)).map fun j => x.getLsbD (w - 1 - j)

/-! ### Fractions and bounds -/

/-- A pair (numerator, denominator); `(1, 0)` is the upper seed "1/0" (R11). -/
structure Frac where
  num : Nat
  den : Nat
  deriving DecidableEq, Repr

/-- `mediant((a, b), (c, d)) = (a + c, b + d)` (R11). -/
def mediant (p q : Frac) : Frac := { num := p.num + q.num, den := p.den + q.den }

/-- The three bounds of the decoder and the encoder (R81, R98). -/
structure Bounds where
  lower : Frac
  mid : Frac
  upper : Frac
  deriving DecidableEq, Repr

/-- The seeds 0/1, 1/1, 1/0 (R81). -/
def Bounds.seed : Bounds where
  lower := { num := 0, den := 1 }
  mid := { num := 1, den := 1 }
  upper := { num := 1, den := 0 }

/-- One path bit: 0 moves `mid` toward `lower`, 1 toward `upper` (R81). -/
def Bounds.descend (b : Bounds) (bit : Bool) : Bounds :=
  match bit with
  | false => { lower := b.lower, mid := mediant b.lower b.mid, upper := b.mid }
  | true => { lower := b.mid, mid := mediant b.mid b.upper, upper := b.upper }

/-- The bounds after a whole path. -/
def boundsAlong (path : List Bool) : Bounds := path.foldl Bounds.descend Bounds.seed

/-- `decode_W` (R81): zero is a case of its own (R82). -/
def decodeFrac {w : Nat} (x : BitVec w) : Frac :=
  if x = 0#w then { num := 0, den := 1 } else (boundsAlong (pathBits x)).mid

end Sys2Proof.Machine
end

