-- ==== Sys2Proof/Machine/Decoder.lean ====
section
/-! DEFINITION. `DEC` (40_decode.md R80, 45_signed.md R142). -/

namespace Sys2Proof.Machine

/-- `DEC.U*` (R80). -/
def execDecU (f : UFmt) (s : State) : Host.Outcome State Fault Refusal :=
  s.answer (withPattern f.width s.req fun x => okFrac (decodeFrac x).num (decodeFrac x).den)

/-- `DEC.I8` (R142). -/
def execDecI8 (s : State) : Host.Outcome State Fault Refusal :=
  s.answer (withSigned s.req fun sg m => okSignedFrac sg (decodeFrac m).num (decodeFrac m).den)

end Sys2Proof.Machine
end

