-- ==== Sys2Proof/Config.lean ====
section
/-! DEFINITION. What an implementation fixes (00_scope.md R8).
No value of this block is free: 93_implementation_defined.md, "nothing returns an `any value` result to
a request". Of R8's parameters only `FCMP_MODE` can be seen in a response; the value the spec takes is
`Machine.fcmpMode` in `Machine/FloatCompare.lean`. -/

namespace Sys2Proof

/-- The arithmetic in which `ENC_FLT` compares a node with its operand (R8, R96, R97). -/
inductive FcmpMode where
  /-- Over the rationals (R96): the value the spec takes. -/
  | exact
  /-- The product rounded to binary64 (R97): the alternative a software implementation would use. -/
  | binary64Rne
  deriving DecidableEq, Repr

end Sys2Proof
end

