-- ==== Sys2Proof/Machine/Binary64.lean ====
section
/-! DEFINITION. The binary64 operand of `ENC_FLT` (30_encoding.md R56, R57). A finite magnitude is held
exactly as a natural number of units of 2^(−1074), the spacing of the subnormals: every finite binary64 is
such a multiple. -/

namespace Sys2Proof.Machine

/-- `a[63]` (R56). -/
def fltSign (a : Word) : Bool := a.getLsbD 63

/-- The biased exponent `a[62:52]` (R56). -/
def fltExponent (a : Word) : Nat := (a.extractLsb' 52 11).toNat

/-- The fraction `a[51:0]` (R56). -/
def fltFraction (a : Word) : Nat := (a.extractLsb' 0 52).toNat

/-- `is_nan` (R57). -/
def isNan (a : Word) : Bool := fltExponent a == 0x7FF && fltFraction a != 0

/-- `is_inf` (R57). -/
def isInf (a : Word) : Bool := fltExponent a == 0x7FF && fltFraction a == 0

/-- `is_neg`: the sign bit, of −0.0, −∞ and NaNs too (R57). -/
def isNeg (a : Word) : Bool := fltSign a

/-- `mag(a) · 2^1074` for a finite `a`: `f` when e = 0, else `(2^52 + f) · 2^(e − 1)` (R57). -/
def magUnits (a : Word) : Nat :=
  if fltExponent a = 0 then fltFraction a
  else (2 ^ 52 + fltFraction a) * 2 ^ (fltExponent a - 1)

end Sys2Proof.Machine
end

