-- ==== Sys2Proof/Machine/FloatCompare.lean ====
section
/-! DEFINITION. The comparison primitive of `ENC_FLT` in its two arithmetics (41_encode.md R96, R97). The
operand `v` is a number of units of 2^(−1074). -/

namespace Sys2Proof.Machine

/-- The value the spec takes for `FCMP_MODE` (00_scope.md R8, R96, log 6). -/
def fcmpMode : FcmpMode := .exact

/-- `fcmp` over the rationals: `mn` against `v · md` (R96). -/
def fcmpExact (p : Frac) (v : Nat) : Ordering := compare (p.num * 2 ^ 1074) (v * p.den)

/-- The binary64 nearest to `m` units, ties to even, with the exponent range unbounded above. Units are the
subnormal spacing, so rounding to 53 significant bits also gives gradual underflow (R97, log 13). -/
def roundUnits (m : Nat) : Nat :=
  let len := m.log2 + 1
  if len ≤ 53 then m
  else
    let sh := len - 53
    let q := m / 2 ^ sh
    let r := m % 2 ^ sh
    let half := 2 ^ (sh - 1)
    if r < half ∨ (r = half ∧ q % 2 = 0) then q * 2 ^ sh else (q + 1) * 2 ^ sh

/-- The smallest magnitude, in units, that overflows to +∞: 2^1024 (R97). -/
def overflowUnits : Nat := 2 ^ (1024 + 1074)

/-- `fcmp` with the product rounded to binary64; +∞ is greater than every numerator (R97). -/
def fcmpRounded (p : Frac) (v : Nat) : Ordering :=
  let product := roundUnits (v * p.den)
  if overflowUnits ≤ product then .lt else compare (p.num * 2 ^ 1074) product

/-- `fcmp` in either arithmetic. -/
def fcmp : FcmpMode → Frac → Nat → Ordering
  | .exact => fcmpExact
  | .binary64Rne => fcmpRounded

end Sys2Proof.Machine
end

