-- ==== Sys2Proof/Machine/Encoder.lean ====
section
/-! DEFINITION. `ENC_INT` and `ENC_FLT` (41_encode.md R90 to R99, 45_signed.md R143, R144). -/

namespace Sys2Proof.Machine

/-! ### From an integer -/

/-- `enc_int_W`, for 0 ≤ n ≤ W (R91). -/
def encInt (w n : Nat) : BitVec w := if n = 0 then 0 else BitVec.allOnes w <<< (w - n)

/-- `ENC_INT.U*` (R90). -/
def execEncIntU (f : UFmt) (s : State) : Host.Outcome State Fault Refusal :=
  s.answer (withUint64 s.req fun n =>
    if f.width < n then .domainError .intTooLarge else okPattern (encInt f.width n))

/-- `ENC_INT.I8` (R143): the magnitude is computed without wrap-around. -/
def execEncIntI8 (s : State) : Host.Outcome State Fault Refusal :=
  s.answer (withSint8 s.req fun n =>
    if 7 < n.natAbs then .domainError .intTooLarge
    else okPattern (packSigned (decide (n < 0)) (encInt 7 n.natAbs)))

/-! ### From a binary64 -/

/-- `emit_W(path, k)`: the k path bits at the top, then the marker (R98). -/
def emit (w path k : Nat) : BitVec w := BitVec.ofNat w (path <<< 1 ||| 1) <<< (w - 1 - k)

/-- The state of the search: the bounds, the path so far and its length, and the recorded best upper and
lower bounds as (path, depth) (R98). -/
structure Search where
  bounds : Bounds
  path : Nat
  k : Nat
  upRec : Option (Nat × Nat)
  loRec : Option (Nat × Nat)
  deriving DecidableEq, Repr

/-- The search before its first step (R98). -/
def Search.start : Search where
  bounds := Bounds.seed
  path := 0
  k := 0
  upRec := none
  loRec := none

/-- `mid > v`: record `mid` as an upper bound and append a 0 (R98). -/
def Search.goLower (st : Search) : Search where
  bounds := st.bounds.descend false
  path := st.path <<< 1
  k := st.k + 1
  upRec := some (st.path, st.k)
  loRec := st.loRec

/-- `mid < v`: record `mid` as a lower bound and append a 1 (R98). -/
def Search.goUpper (st : Search) : Search where
  bounds := st.bounds.descend true
  path := st.path <<< 1 ||| 1
  k := st.k + 1
  upRec := st.upRec
  loRec := some (st.path, st.k)

/-- The node of a record, or the current node where nothing was recorded (R98, R99). -/
def Search.emitRecord (w : Nat) (st : Search) : Option (Nat × Nat) → BitVec w
  | some (path, k) => emit w path k
  | none => emit w st.path st.k

/-- The final comparison, after W − 1 steps without an exact hit (R98). -/
def Search.finish (w : Nat) (cmp : Frac → Ordering) (st : Search) : BitVec w :=
  match cmp st.bounds.mid with
  | .eq => emit w st.path st.k
  | .gt => st.emitRecord w st.upRec
  | .lt => st.emitRecord w st.loRec

/-- The search with a number of steps left (R98). -/
def searchFrom (w : Nat) (cmp : Frac → Ordering) : Nat → Search → BitVec w
  | 0, st => st.finish w cmp
  | n + 1, st =>
    match cmp st.bounds.mid with
    | .eq => emit w st.path st.k
    | .gt => searchFrom w cmp n st.goLower
    | .lt => searchFrom w cmp n st.goUpper

/-- `enc_flt_W(v)` in a comparison arithmetic, `v` in units of 2^(−1074) (R98). -/
def encFlt (mode : FcmpMode) (w v : Nat) : BitVec w :=
  searchFrom w (fun p => fcmp mode p v) (w - 1) Search.start

/-- `ENC_FLT.U*`: NaN, then the sign, then infinity (R95). -/
def execEncFltU (f : UFmt) (s : State) : Host.Outcome State Fault Refusal :=
  s.answer (withFloat s.req fun a =>
    if isNan a then .domainError .fltNan
    else if isNeg a then .domainError .fltNegative
    else if isInf a then .domainError .fltInfinite
    else okPattern (encFlt fcmpMode f.width (magUnits a)))

/-- `ENC_FLT.I8`: NaN, then infinity; the sign is copied (R144). -/
def execEncFltI8 (s : State) : Host.Outcome State Fault Refusal :=
  s.answer (withFloat s.req fun a =>
    if isNan a then .domainError .fltNan
    else if isInf a then .domainError .fltInfinite
    else okPattern (packSigned (fltSign a) (encFlt fcmpMode 7 (magUnits a))))

end Sys2Proof.Machine
end

