-- ==== Sys2Proof/Machine/Inverter.lean ====
section
/-! DEFINITION. `INV`, `INV_CHK`, `INV_UNCHK` (43_invert.md R115 to R119, 45_signed.md R146 to R148). -/

namespace Sys2Proof.Machine

/-- `invert_W`: flip every bit above the marker; the mask is empty for zero (R117). -/
def invert {w : Nat} (x : BitVec w) : BitVec w := x ^^^ (BitVec.allOnes w <<< (tzcnt x + 1))

/-- `INV.U*`: FAULT on zero (R116). -/
def execInvU (f : UFmt) (s : State) : Host.Outcome State Fault Refusal :=
  s.answer (withPattern f.width s.req fun x =>
    if x = 0#f.width then .fault .invertZero else okPattern (invert x))

/-- `INV_CHK.U*`: NONE on zero (R118). -/
def execInvChkU (f : UFmt) (s : State) : Host.Outcome State Fault Refusal :=
  s.answer (withPattern f.width s.req fun x => if x = 0#f.width then .none else okPattern (invert x))

/-- `INV_UNCHK.U*`: identity on zero (R119). -/
def execInvUnchkU (f : UFmt) (s : State) : Host.Outcome State Fault Refusal :=
  s.answer (withPattern f.width s.req fun x => okPattern (invert x))

/-- `INV.I8`: `0x7F` on zero; else the sign is kept (R146). -/
def execInvI8 (s : State) : Host.Outcome State Fault Refusal :=
  s.answer (withSigned s.req fun sg m =>
    if m = 0#7 then okPattern 0x7F#8 else okPattern (packSigned sg (invert m)))

/-- `INV_CHK.I8`: NONE on zero (R147). -/
def execInvChkI8 (s : State) : Host.Outcome State Fault Refusal :=
  s.answer (withSigned s.req fun sg m =>
    if m = 0#7 then .none else okPattern (packSigned sg (invert m)))

/-- `INV_UNCHK.I8`: identity on zero (R148). -/
def execInvUnchkI8 (s : State) : Host.Outcome State Fault Refusal :=
  s.answer (withSigned s.req fun sg m => okPattern (packSigned sg (invert m)))

end Sys2Proof.Machine
end

