-- ==== Sys2Proof/Machine/Navigator.lean ====
section
/-! DEFINITION. `PARENT`, `LCHILD`, `RCHILD`, `CHILDREN`, `SIBLING`, `ISLEAF` (44_navigate.md R125 to R131,
45_signed.md R149 to R154). `none` is the response NONE. -/

namespace Sys2Proof.Machine

/-! ### The moves, on a pattern of any width -/

/-- Clear bit `t` and set bit `u`: move the marker (R126, R127). -/
def moveMarker {w : Nat} (x : BitVec w) (t u : Nat) : BitVec w :=
  x &&& ~~~(BitVec.twoPow w t) ||| BitVec.twoPow w u

/-- `parent()`: none for zero and the root; else the marker moves from `t` to `t+1` (R126). -/
def parent {w : Nat} (x : BitVec w) : Option (BitVec w) :=
  if x = 0#w then none
  else if tzcnt x = w - 1 then none
  else some (moveMarker x (tzcnt x) (tzcnt x + 1))

/-- `left_child()`: none for zero and a leaf; else bit `t` becomes the path bit 0 (R127). -/
def leftChild {w : Nat} (x : BitVec w) : Option (BitVec w) :=
  if x = 0#w then none
  else if tzcnt x = 0 then none
  else some (moveMarker x (tzcnt x) (tzcnt x - 1))

/-- `right_child()`: none for zero and a leaf; else bit `t` becomes the path bit 1 (R128). -/
def rightChild {w : Nat} (x : BitVec w) : Option (BitVec w) :=
  if x = 0#w then none
  else if tzcnt x = 0 then none
  else some (x ||| BitVec.twoPow w (tzcnt x - 1))

/-- `children()`: both children, none where there are none (R129). -/
def children {w : Nat} (x : BitVec w) : Option (BitVec w × BitVec w) :=
  match leftChild x, rightChild x with
  | some l, some r => some (l, r)
  | _, _ => none

/-- `sibling()`: none for zero and the root; else the path bit above the marker flips (R130). -/
def sibling {w : Nat} (x : BitVec w) : Option (BitVec w) :=
  if x = 0#w then none
  else if tzcnt x = w - 1 then none
  else some (x ^^^ BitVec.twoPow w (tzcnt x + 1))

/-- `is_leaf()`: bit 0 (R131). -/
def isLeaf {w : Nat} (x : BitVec w) : Bool := x.getLsbD 0

/-! ### The unsigned formats -/

/-- `PARENT.U*` (R126). -/
def execParentU (f : UFmt) (s : State) : Host.Outcome State Fault Refusal :=
  s.answer (withPattern f.width s.req fun x => okPattern? (parent x))

/-- `LCHILD.U*` (R127). -/
def execLchildU (f : UFmt) (s : State) : Host.Outcome State Fault Refusal :=
  s.answer (withPattern f.width s.req fun x => okPattern? (leftChild x))

/-- `RCHILD.U*` (R128). -/
def execRchildU (f : UFmt) (s : State) : Host.Outcome State Fault Refusal :=
  s.answer (withPattern f.width s.req fun x => okPattern? (rightChild x))

/-- `CHILDREN.U*` (R129). -/
def execChildrenU (f : UFmt) (s : State) : Host.Outcome State Fault Refusal :=
  s.answer (withPattern f.width s.req fun x => okPair? (children x))

/-- `SIBLING.U*` (R130). -/
def execSiblingU (f : UFmt) (s : State) : Host.Outcome State Fault Refusal :=
  s.answer (withPattern f.width s.req fun x => okPattern? (sibling x))

/-- `ISLEAF.U*` (R131). -/
def execIsleafU (f : UFmt) (s : State) : Host.Outcome State Fault Refusal :=
  s.answer (withPattern f.width s.req fun x => okBool (isLeaf x))

/-! ### `I8`: on the magnitude, the sign copied (45_signed.md section 3) -/

/-- `PARENT.I8` (R149). -/
def execParentI8 (s : State) : Host.Outcome State Fault Refusal :=
  s.answer (withSigned s.req fun sg m => okPattern? ((parent m).map (packSigned sg)))

/-- `LCHILD.I8` (R150). -/
def execLchildI8 (s : State) : Host.Outcome State Fault Refusal :=
  s.answer (withSigned s.req fun sg m => okPattern? ((leftChild m).map (packSigned sg)))

/-- `RCHILD.I8` (R151). -/
def execRchildI8 (s : State) : Host.Outcome State Fault Refusal :=
  s.answer (withSigned s.req fun sg m => okPattern? ((rightChild m).map (packSigned sg)))

/-- `CHILDREN.I8` (R152). -/
def execChildrenI8 (s : State) : Host.Outcome State Fault Refusal :=
  s.answer (withSigned s.req fun sg m =>
    okPair? ((children m).map fun p => (packSigned sg p.1, packSigned sg p.2)))

/-- `SIBLING.I8` (R153). -/
def execSiblingI8 (s : State) : Host.Outcome State Fault Refusal :=
  s.answer (withSigned s.req fun sg m => okPattern? ((sibling m).map (packSigned sg)))

/-- `ISLEAF.I8` (R154). -/
def execIsleafI8 (s : State) : Host.Outcome State Fault Refusal :=
  s.answer (withSigned s.req fun _ m => okBool (isLeaf m))

end Sys2Proof.Machine
end

