-- ==== Sys2Proof/Machine/Dispatch.lean ====
section
/-! DEFINITION. The meaning of every instruction: one arm per constructor, one definition per arm. -/

namespace Sys2Proof.Machine

def exec (i : Instr) (s : State) : Host.Outcome State Fault Refusal :=
  match i with
  | .decU f => Sys2Proof.Machine.execDecU f s
  | .decI8 => Sys2Proof.Machine.execDecI8 s
  | .encIntU f => Sys2Proof.Machine.execEncIntU f s
  | .encIntI8 => Sys2Proof.Machine.execEncIntI8 s
  | .encFltU f => Sys2Proof.Machine.execEncFltU f s
  | .encFltI8 => Sys2Proof.Machine.execEncFltI8 s
  | .cmpU f => Sys2Proof.Machine.execCmpU f s
  | .cmpI8 => Sys2Proof.Machine.execCmpI8 s
  | .parentU f => Sys2Proof.Machine.execParentU f s
  | .parentI8 => Sys2Proof.Machine.execParentI8 s
  | .lchildU f => Sys2Proof.Machine.execLchildU f s
  | .lchildI8 => Sys2Proof.Machine.execLchildI8 s
  | .rchildU f => Sys2Proof.Machine.execRchildU f s
  | .rchildI8 => Sys2Proof.Machine.execRchildI8 s
  | .childrenU f => Sys2Proof.Machine.execChildrenU f s
  | .childrenI8 => Sys2Proof.Machine.execChildrenI8 s
  | .siblingU f => Sys2Proof.Machine.execSiblingU f s
  | .siblingI8 => Sys2Proof.Machine.execSiblingI8 s
  | .isleafU f => Sys2Proof.Machine.execIsleafU f s
  | .isleafI8 => Sys2Proof.Machine.execIsleafI8 s
  | .invU f => Sys2Proof.Machine.execInvU f s
  | .invI8 => Sys2Proof.Machine.execInvI8 s
  | .invChkU f => Sys2Proof.Machine.execInvChkU f s
  | .invChkI8 => Sys2Proof.Machine.execInvChkI8 s
  | .invUnchkU f => Sys2Proof.Machine.execInvUnchkU f s
  | .invUnchkI8 => Sys2Proof.Machine.execInvUnchkI8 s
  | .widenU8U16 => Sys2Proof.Machine.execWidenU8U16 s
  | .widenU8U32 => Sys2Proof.Machine.execWidenU8U32 s
  | .widenU8U64 => Sys2Proof.Machine.execWidenU8U64 s
  | .widenU16U32 => Sys2Proof.Machine.execWidenU16U32 s
  | .widenU16U64 => Sys2Proof.Machine.execWidenU16U64 s
  | .widenU32U64 => Sys2Proof.Machine.execWidenU32U64 s
  | .narrowU16U8 => Sys2Proof.Machine.execNarrowU16U8 s
  | .narrowU32U8 => Sys2Proof.Machine.execNarrowU32U8 s
  | .narrowU32U16 => Sys2Proof.Machine.execNarrowU32U16 s
  | .narrowU64U8 => Sys2Proof.Machine.execNarrowU64U8 s
  | .narrowU64U16 => Sys2Proof.Machine.execNarrowU64U16 s
  | .narrowU64U32 => Sys2Proof.Machine.execNarrowU64U32 s
  | .narrowLossyU16U8 => Sys2Proof.Machine.execNarrowLossyU16U8 s
  | .narrowLossyU32U8 => Sys2Proof.Machine.execNarrowLossyU32U8 s
  | .narrowLossyU32U16 => Sys2Proof.Machine.execNarrowLossyU32U16 s
  | .narrowLossyU64U8 => Sys2Proof.Machine.execNarrowLossyU64U8 s
  | .narrowLossyU64U16 => Sys2Proof.Machine.execNarrowLossyU64U16 s
  | .narrowLossyU64U32 => Sys2Proof.Machine.execNarrowLossyU64U32 s

end Sys2Proof.Machine
end

