-- ==== Sys2Proof/Machine/Step.lean ====
section
/-! DEFINITION. One step: the block answers the request on its request port (10_state.md R25,
20_memory.md R48). -/

namespace Sys2Proof.Machine

/-- Decode the command; run the instruction on the ports, or show the FAULT response the decoder names
(60_exceptions.md R179). -/
def step (s : State) : Host.Outcome State Fault Refusal :=
  match decode s.req.cmd with
  | .ok i => exec i s
  | .error c => s.refuse c

/-- `s` with the request whose bits are `w` on its request port: the host presents it (log 3). The operand
fields are the bits above the command, zero where the table gives none (log 7). -/
def State.withFetchWord (s : State) (nbits w : Nat) : State := s.present (requestOfBits nbits w)

end Sys2Proof.Machine
end

