-- ==== Sys2Proof/Machine/Constants.lean ====
section
/-! DEFINITION. The named constants the spec fixes (00_scope.md R9) and the pseudo-operations
(30_encoding.md R71, R78): patterns a host may present. The block has no operation that returns them. -/

namespace Sys2Proof.Machine

/-- The width of a format's tree: W, or 7 for the `I8` magnitude (R6). -/
def treeWidth : Format → Nat
  | .unsigned f => f.width
  | .i8 => 7

/-- `ZERO` (R9). -/
def zeroPattern (_ : Format) : Word := 0

/-- `ONE`, the root (R9). -/
def onePattern (f : Format) : Word := BitVec.twoPow 64 (treeWidth f - 1)

/-- `MIN`, the smallest positive value, in `I8` too (R9, log 12). -/
def minPattern (_ : Format) : Word := 1

/-- `MAX`, the all-ones pattern (R9). -/
def maxPattern (f : Format) : Word := BitVec.ofNat 64 (2 ^ treeWidth f - 1)

/-- The pseudo-operations with a value (R71). -/
inductive Pseudo where
  | zero | one | max | min
  | fromBits (x : Word)
  | toBits (x : Word)
  deriving DecidableEq, Repr

/-- The literal a pseudo-operation stands for; a raw pattern is its own value (R71, R78). -/
def expandPseudo (f : Format) : Pseudo → Word
  | .zero => zeroPattern f
  | .one => onePattern f
  | .max => maxPattern f
  | .min => minPattern f
  | .fromBits x => x
  | .toBits x => x

end Sys2Proof.Machine
end

