-- ==== Sys2Proof/Machine/Host.lean ====
section
/-! DEFINITION. The host beside the block (70_reset_and_hazards.md R199, R200; 30_encoding.md R70). A
program is the host's list of requests (10_state.md R29), so these are functions around `step`, not state. -/

namespace Sys2Proof.Machine

/-- Present one request and take its response (R199). -/
def ask (s : State) (r : Request) : Option Response :=
  match step (s.present r) with
  | .next t => some t.rsp
  | .fault _ => none
  | .refused _ => none

/-- Present a list of requests in order: one response each, in request order (R48, R200), and the state
after the last. -/
def serve : State → List Request → List Response × State
  | s, [] => ([], s)
  | s, r :: rs =>
    match step (s.present r) with
    | .next t => let rest := serve t rs; (t.rsp :: rest.1, rest.2)
    | .fault _ => ([], s)
    | .refused _ => ([], s)

/-- The same under the document's "panic" reading: the program ends at its first FAULT response
(60_exceptions.md R181, R200). -/
def serveUntilFault : State → List Request → List Response × State
  | s, [] => ([], s)
  | s, r :: rs =>
    match step (s.present r) with
    | .next t =>
      if t.rsp.status = statusCode .fault then ([t.rsp], t)
      else let rest := serveUntilFault t rs; (t.rsp :: rest.1, rest.2)
    | .fault _ => ([], s)
    | .refused _ => ([], s)

/-! ### Assembler names (R70) -/

/-- A format's name (R62). -/
def formatName : UFmt → String
  | .u8 => "U8"
  | .u16 => "U16"
  | .u32 => "U32"
  | .u64 => "U64"

/-- `MNEMONIC.FMT`, and `MNEMONIC.FMT.FMT2` for a conversion (R70). -/
def mnemonic : Instr → String
  | .decU f => "DEC." ++ formatName f
  | .decI8 => "DEC.I8"
  | .encIntU f => "ENC_INT." ++ formatName f
  | .encIntI8 => "ENC_INT.I8"
  | .encFltU f => "ENC_FLT." ++ formatName f
  | .encFltI8 => "ENC_FLT.I8"
  | .cmpU f => "CMP." ++ formatName f
  | .cmpI8 => "CMP.I8"
  | .parentU f => "PARENT." ++ formatName f
  | .parentI8 => "PARENT.I8"
  | .lchildU f => "LCHILD." ++ formatName f
  | .lchildI8 => "LCHILD.I8"
  | .rchildU f => "RCHILD." ++ formatName f
  | .rchildI8 => "RCHILD.I8"
  | .childrenU f => "CHILDREN." ++ formatName f
  | .childrenI8 => "CHILDREN.I8"
  | .siblingU f => "SIBLING." ++ formatName f
  | .siblingI8 => "SIBLING.I8"
  | .isleafU f => "ISLEAF." ++ formatName f
  | .isleafI8 => "ISLEAF.I8"
  | .invU f => "INV." ++ formatName f
  | .invI8 => "INV.I8"
  | .invChkU f => "INV_CHK." ++ formatName f
  | .invChkI8 => "INV_CHK.I8"
  | .invUnchkU f => "INV_UNCHK." ++ formatName f
  | .invUnchkI8 => "INV_UNCHK.I8"
  | .widenU8U16 => "WIDEN.U8.U16"
  | .widenU8U32 => "WIDEN.U8.U32"
  | .widenU8U64 => "WIDEN.U8.U64"
  | .widenU16U32 => "WIDEN.U16.U32"
  | .widenU16U64 => "WIDEN.U16.U64"
  | .widenU32U64 => "WIDEN.U32.U64"
  | .narrowU16U8 => "NARROW.U16.U8"
  | .narrowU32U8 => "NARROW.U32.U8"
  | .narrowU32U16 => "NARROW.U32.U16"
  | .narrowU64U8 => "NARROW.U64.U8"
  | .narrowU64U16 => "NARROW.U64.U16"
  | .narrowU64U32 => "NARROW.U64.U32"
  | .narrowLossyU16U8 => "NARROW_LOSSY.U16.U8"
  | .narrowLossyU32U8 => "NARROW_LOSSY.U32.U8"
  | .narrowLossyU32U16 => "NARROW_LOSSY.U32.U16"
  | .narrowLossyU64U8 => "NARROW_LOSSY.U64.U8"
  | .narrowLossyU64U16 => "NARROW_LOSSY.U64.U16"
  | .narrowLossyU64U32 => "NARROW_LOSSY.U64.U32"

end Sys2Proof.Machine
end

