-- ==== Sys2Proof/Machine/Value.lean ====
section
/-! DEFINITION. What patterns and operands denote, as rationals (30_encoding.md R52, R54, R57). No step
computes with these: they are the terms in which claims speak of values. `patternNode` follows R52's words
(nearest smaller and larger ancestors), not the decoder's bounds. -/

namespace Sys2Proof.Machine

/-! ### The value of a pattern (R52) -/

/-- Strictly smaller as fractions. -/
def Frac.below (p q : Frac) : Bool := p.num * q.den < q.num * p.den

/-- A tree node with the values of its ancestors, the nearest first. -/
structure Node where
  value : Frac
  ancestors : List Frac
  deriving DecidableEq, Repr

/-- The root 1/1 (R52). -/
def Node.root : Node where
  value := { num := 1, den := 1 }
  ancestors := []

/-- The nearest smaller ancestor, or the seed 0/1 (R52, log 11). -/
def Node.smaller (n : Node) : Frac :=
  (n.ancestors.find? fun p => p.below n.value).getD { num := 0, den := 1 }

/-- The nearest larger ancestor, or the seed 1/0 (R52, log 11). -/
def Node.larger (n : Node) : Frac :=
  (n.ancestors.find? fun p => n.value.below p).getD { num := 1, den := 0 }

/-- The left child (false) or right child (true): the mediant of the node and its nearest smaller, or
larger, ancestor (R52). -/
def Node.child (n : Node) (bit : Bool) : Node where
  value := if bit then mediant n.value n.larger else mediant n.smaller n.value
  ancestors := n.value :: n.ancestors

/-- The node a nonzero pattern denotes (R52). -/
def patternNode {w : Nat} (x : BitVec w) : Frac := ((pathBits x).foldl Node.child Node.root).value

/-- The fraction as a rational number. -/
def Frac.toRat (p : Frac) : ℚ := (p.num : ℚ) / (p.den : ℚ)

/-- `val_W` (R52): zero for the all-zero pattern. -/
def patternValue {w : Nat} (x : BitVec w) : ℚ := if x = 0#w then 0 else (patternNode x).toRat

/-- `val_I8` (R54). -/
def signedValue (x : BitVec 8) : ℚ :=
  (if signOf x then -1 else 1) * patternValue (magnitudeOf x)

/-! ### The value of a binary64 operand (R57) -/

/-- `mag(a)` of a finite operand (R57). -/
def floatMagnitude (a : Word) : ℚ :=
  if fltExponent a = 0 then (fltFraction a : ℚ) * 2 ^ (-1074 : ℤ)
  else ((2 ^ 52 + fltFraction a : ℕ) : ℚ) * 2 ^ ((fltExponent a : ℤ) - 1075)

/-- `value(a)` of a finite operand (R57). -/
def floatValue (a : Word) : ℚ := (if fltSign a then -1 else 1) * floatMagnitude a

end Sys2Proof.Machine
end

