-- ==== Sys2Proof/WellFormed.lean ====
section
/-! DEFINITION. What a request must satisfy to be answered by its operation and not refused, written from
30_encoding.md R62 and R65 to R68, 45_signed.md R141 and 46_convert.md R166 by arithmetic on the fields,
without the decoder of `Decode.lean`. A term of `Instr` is well formed by its type (the formats that
would be illegal cannot be written); the ill-formed terms are raw command words and requests. -/

namespace Sys2Proof

/-- Bits 4:0 of a command, as a number (R60). -/
def Command.opField (w : Command) : Nat := w.toNat % 32

/-- Bits 7:5 of a command (R60). -/
def Command.fmtField (w : Command) : Nat := w.toNat / 32 % 8

/-- Bits 10:8 of a command (R60). -/
def Command.fmt2Field (w : Command) : Nat := w.toNat / 256 % 8

/-- Bits 15:11 of a command (R60). -/
def Command.rsvField (w : Command) : Nat := w.toNat / 2048

/-- The sixteen assigned opcode numbers (R66). -/
def assignedOpcodes : List Nat :=
  [0x01, 0x02, 0x03, 0x04, 0x08, 0x09, 0x0A, 0x0B, 0x0C, 0x0D, 0x10, 0x11, 0x12, 0x18, 0x19, 0x1A]

/-- The opcode is assigned (R66, R67). -/
def Command.opAssigned (w : Command) : Bool := assignedOpcodes.contains w.opField

/-- The opcode is `WIDEN`, `NARROW` or `NARROW_LOSSY` (R66). -/
def Command.isConversion (w : Command) : Bool := 0x18 ≤ w.opField && w.opField ≤ 0x1A

/-- `cw` of a format code; the reserved codes have none (R62). -/
def containerWidth : Nat → Option Nat
  | 0 => some 8
  | 1 => some 16
  | 2 => some 32
  | 3 => some 64
  | 4 => some 8
  | _ => none

/-- The format fields are legal for the opcode (R68, R166): any assigned `fmt` outside the conversions;
in a conversion two unsigned formats, the second wider for `WIDEN` and narrower for the other two. -/
def Command.formatLegal (w : Command) : Bool :=
  if w.isConversion then
    w.fmtField < 4 && w.fmt2Field < 4 &&
      (if w.opField = 0x18 then w.fmtField < w.fmt2Field else w.fmt2Field < w.fmtField)
  else w.fmtField < 5

/-- The bits of the command that the opcode does not use are zero (R65). -/
def Command.reservedClear (w : Command) : Bool :=
  w.rsvField == 0 && (w.isConversion || w.fmt2Field == 0)

/-- The command word selects an operation in a legal format with clean unused bits (R69). -/
def Command.wellFormed (w : Command) : Bool := w.opAssigned && w.formatLegal && w.reservedClear

/-- Operand B is zero unless the opcode is `CMP` (R65). -/
def Request.bClear (r : Request) : Bool := r.b == 0 || r.cmd.opField == 0x04

/-- Port `a` carries a `PAT` or `SINT8` operand: every operation but `ENC_FLT` and the unsigned
`ENC_INT` (R63, R66). -/
def Request.aIsNarrow (r : Request) : Bool :=
  r.cmd.opField != 0x03 && (r.cmd.opField != 0x02 || r.cmd.fmtField == 4)

/-- No operand has a bit set at or above its container width (R65). -/
def Request.inRange (r : Request) : Bool :=
  match containerWidth r.cmd.fmtField with
  | some cw =>
    (!r.aIsNarrow || r.a.toNat < 2 ^ cw) && (r.cmd.opField != 0x04 || r.b.toNat < 2 ^ cw)
  | none => true

/-- No `I8` pattern operand is `0x80` (R141). -/
def Request.patternsValid (r : Request) : Bool :=
  r.cmd.fmtField != 4 || r.cmd.opField == 0x02 || r.cmd.opField == 0x03 ||
    (r.a != 0x80 && (r.cmd.opField != 0x04 || r.b != 0x80))

/-- The request meets the host's duties of 70_reset_and_hazards.md R199 and holds valid patterns: its
operation answers it. -/
def Request.wellFormed (r : Request) : Bool :=
  r.cmd.wellFormed && r.bClear && r.inRange && r.patternsValid

/-- The first failing check of steps 1 to 5 of 60_exceptions.md R179. -/
def Request.refusal (r : Request) : Option FaultCause :=
  if !r.cmd.opAssigned then some .illegalOp
  else if !r.cmd.formatLegal then some .illegalFmt
  else if !(r.cmd.reservedClear && r.bClear) then some .reservedNonzero
  else if !r.inRange then some .operandRange
  else if !r.patternsValid then some .invalidPattern
  else none

end Sys2Proof
end

