-- ==== Sys2Proof/Safety.lean ====
section
/-! DEFINITION. The terms claims speak in: the four responses written with the spec's own numbers, what a
request presents, what a sound response is, and runs without a fault. Nothing here is used by `step`. -/

namespace Sys2Proof.Machine

/-! ### States after a step, written with the numbers of 60_exceptions.md R175 to R177 -/

/-- `respond OK(r0, r1)`: status `00`. -/
abbrev State.ok (s : State) (r0 r1 : Word) : State :=
  { s with rsp := { status := 0b00, r0 := r0, r1 := r1 } }

/-- `respond NONE`: status `01`, both results zero. -/
abbrev State.absent (s : State) : State :=
  { s with rsp := { status := 0b01, r0 := 0, r1 := 0 } }

/-- `raise DomainError(c)`: status `10`, the cause in `r0`. -/
abbrev State.domainError (s : State) (c : Word) : State :=
  { s with rsp := { status := 0b10, r0 := c, r1 := 0 } }

/-- `raise Fault(c)`: status `11`, the cause in `r0`. -/
abbrev State.faulted (s : State) (c : Word) : State :=
  { s with rsp := { status := 0b11, r0 := c, r1 := 0 } }

/-- The number of a fault cause (R177). -/
def causeNumber : FaultCause → Word
  | .invertZero => 1
  | .illegalOp => 2
  | .illegalFmt => 3
  | .reservedNonzero => 4
  | .operandRange => 5
  | .invalidPattern => 6

/-! ### What a request presents -/

/-- Port `a` carries the value `x` with zeros above it, and port `b` is zero (30_encoding.md R63, R65). -/
abbrev State.presents {w : Nat} (s : State) (x : BitVec w) : Prop :=
  s.req.a = x.setWidth 64 ∧ s.req.b = 0#64

/-- Ports `a` and `b` carry the values `x` and `y` with zeros above them (R63). -/
abbrev State.presentsPair {w : Nat} (s : State) (x y : BitVec w) : Prop :=
  s.req.a = x.setWidth 64 ∧ s.req.b = y.setWidth 64

/-- Bit `t` is the lowest set bit of `x`: its marker (30_encoding.md R51). -/
abbrev IsMarker {w : Nat} (x : BitVec w) (t : Nat) : Prop :=
  x.getLsbD t = true ∧ ∀ j < t, x.getLsbD j = false

/-- The format code of an unsigned format as a number (R62). -/
def formatNumber : UFmt → Nat
  | .u8 => 0
  | .u16 => 1
  | .u32 => 2
  | .u64 => 3

/-- The command `(fmt << 5) | op` of a one-format operation (R66). -/
def commandOf (fmt op : Nat) : Command := BitVec.ofNat 16 (fmt * 32 + op)

/-! ### Conversions between two widths -/

/-- `i` widens: it multiplies the pattern, as a number, by `2^(wt − ws)` (46_convert.md R167). -/
abbrev Widens (i : Instr) (ws wt : Nat) : Prop :=
  ∀ (s : State) (x : BitVec ws), s.presents x →
    exec i s = .next (s.ok (BitVec.ofNat 64 (x.toNat * 2 ^ (wt - ws))) 0)

/-- `i` narrows or reports the loss: PRECISION_LOSS when a discarded bit is set, else the quotient
(46_convert.md R168). -/
abbrev Narrows (i : Instr) (ws wt : Nat) : Prop :=
  ∀ (s : State) (x : BitVec ws), s.presents x →
    (x.toNat % 2 ^ (ws - wt) ≠ 0 → exec i s = .next (s.domainError 5)) ∧
    (x.toNat % 2 ^ (ws - wt) = 0 →
      exec i s = .next (s.ok (BitVec.ofNat 64 (x.toNat / 2 ^ (ws - wt))) 0))

/-- `i` narrows lossily: the quotient, with bit 0 forced when a discarded bit is set
(46_convert.md R169). -/
abbrev NarrowsLossily (i : Instr) (ws wt : Nat) : Prop :=
  ∀ (s : State) (x : BitVec ws), s.presents x →
    (x.toNat % 2 ^ (ws - wt) ≠ 0 →
      exec i s = .next (s.ok (BitVec.ofNat 64 (x.toNat / 2 ^ (ws - wt) ||| 1)) 0)) ∧
    (x.toNat % 2 ^ (ws - wt) = 0 →
      exec i s = .next (s.ok (BitVec.ofNat 64 (x.toNat / 2 ^ (ws - wt))) 0))

/-! ### Sound responses -/

/-- The result forms (30_encoding.md R64). -/
inductive ResultForm where
  /-- A pattern of a container width. -/
  | pat (cw : Nat)
  /-- Two patterns. -/
  | patPair (cw : Nat)
  /-- A valid `I8` pattern. -/
  | signedPat
  /-- Two valid `I8` patterns. -/
  | signedPair
  /-- Numerator and denominator of a width. -/
  | frac (cw : Nat)
  /-- An 8-bit signed numerator and a denominator. -/
  | sfrac
  | ord
  | bool
  deriving DecidableEq, Repr

/-- The result form of an instruction (R66, and the "result" column of spec/opcode_table.json). -/
def resultForm : Instr → ResultForm
  | .decU f => .frac f.width
  | .decI8 => .sfrac
  | .encIntU f | .encFltU f => .pat f.width
  | .encIntI8 | .encFltI8 => .signedPat
  | .cmpU _ | .cmpI8 => .ord
  | .parentU f | .lchildU f | .rchildU f | .siblingU f => .pat f.width
  | .parentI8 | .lchildI8 | .rchildI8 | .siblingI8 => .signedPat
  | .childrenU f => .patPair f.width
  | .childrenI8 => .signedPair
  | .isleafU _ | .isleafI8 => .bool
  | .invU f | .invChkU f | .invUnchkU f => .pat f.width
  | .invI8 | .invChkI8 | .invUnchkI8 => .signedPat
  | .widenU8U16 => .pat 16
  | .widenU8U32 | .widenU16U32 => .pat 32
  | .widenU8U64 | .widenU16U64 | .widenU32U64 => .pat 64
  | .narrowU16U8 | .narrowU32U8 | .narrowU64U8 => .pat 8
  | .narrowU32U16 | .narrowU64U16 => .pat 16
  | .narrowU64U32 => .pat 32
  | .narrowLossyU16U8 | .narrowLossyU32U8 | .narrowLossyU64U8 => .pat 8
  | .narrowLossyU32U16 | .narrowLossyU64U16 => .pat 16
  | .narrowLossyU64U32 => .pat 32

/-- A word is a valid `I8` pattern with zeros above it: the container is clear and it is not `0x80`
(R55, R64; 45_signed.md R155). -/
def validSigned (v : Word) : Prop := v.toNat < 256 ∧ v ≠ 0x80

/-- The results of an OK response have their form: every bit the form does not define is zero (R61, R64),
a denominator is at least 1 (40_decode.md R84), no `I8` pattern is `0x80` (45_signed.md R155). -/
def fitsForm (r : Response) : ResultForm → Prop
  | .pat cw => r.r0.toNat < 2 ^ cw ∧ r.r1 = 0
  | .patPair cw => r.r0.toNat < 2 ^ cw ∧ r.r1.toNat < 2 ^ cw
  | .signedPat => validSigned r.r0 ∧ r.r1 = 0
  | .signedPair => validSigned r.r0 ∧ validSigned r.r1
  | .frac cw => r.r0.toNat < 2 ^ cw ∧ 1 ≤ r.r1.toNat ∧ r.r1.toNat < 2 ^ cw
  | .sfrac => r.r0.toNat < 256 ∧ 1 ≤ r.r1.toNat ∧ r.r1.toNat ≤ 21
  | .ord => (r.r0 = 0 ∨ r.r0 = 1 ∨ r.r0 = 3) ∧ r.r1 = 0
  | .bool => (r.r0 = 0 ∨ r.r0 = 1) ∧ r.r1 = 0

/-- The instructions that may answer NONE (60_exceptions.md R178). -/
def mayBeAbsent : Instr → Bool
  | .parentU _ | .parentI8 | .siblingU _ | .siblingI8 => true
  | .lchildU _ | .lchildI8 | .rchildU _ | .rchildI8 | .childrenU _ | .childrenI8 => true
  | .invChkU _ | .invChkI8 => true
  | _ => false

/-- The domain-error causes an instruction may raise (60_exceptions.md R176). -/
def domainCauses : Instr → List Word
  | .encIntU _ | .encIntI8 => [1]
  | .encFltU _ => [2, 3, 4]
  | .encFltI8 => [3, 4]
  | .narrowU16U8 | .narrowU32U8 | .narrowU32U16 | .narrowU64U8 | .narrowU64U16
  | .narrowU64U32 => [5]
  | _ => []

/-- The response on the port is one the request on the port can have (R61, R64, R175 to R178): OK with
results of the instruction's form, NONE or a domain error only from an instruction that has it and with
nothing else set, or one of the six faults. -/
def responseSound (s : State) : Prop :=
  match s.rsp.status.toNat with
  | 0 => ∃ i, decode s.req.cmd = .ok i ∧ fitsForm s.rsp (resultForm i)
  | 1 => (∃ i, decode s.req.cmd = .ok i ∧ mayBeAbsent i = true) ∧ s.rsp.r0 = 0 ∧ s.rsp.r1 = 0
  | 2 => (∃ i, decode s.req.cmd = .ok i ∧ s.rsp.r0 ∈ domainCauses i) ∧ s.rsp.r1 = 0
  | _ => (∃ c, s.rsp.r0 = causeNumber c) ∧ s.rsp.r1 = 0

/-! ### Runs without a fault -/

/-- The response on the port is a FAULT (R177). -/
def State.isFaulted (s : State) : Prop := s.rsp.status = 0b11

/-- No request of a program faulted: the premise R177 asks of a claim about a program. -/
def faultFree (s : State) (program : List Request) : Prop :=
  ∀ r ∈ (serve s program).1, r.status ≠ 0b11

end Sys2Proof.Machine
end

