-- ==== Sys2Proof/Certificates/Slice0/Obligations.lean ====
section
/-! DEFINITION. The statements for the provers, in the order of OBLIGATIONS.json. -/

open Sys2Proof Sys2Proof.Machine

/-! ### The command word and the step -/

/-- Decode and encode agree in both directions on all 65536 command words: a word decodes to `i` exactly
when it is the word of `i`. -/
def Obligations.DecodeIsInverseOfEncode : Prop :=
  ∀ (w : Command) (i : Instr), decode w = .ok i ↔ encode i = w

/-- The decoder gives an instruction to exactly the command words whose opcode is assigned, whose format
is legal and whose unused bits are zero (R67, R68, R65 of 30_encoding.md). -/
def Obligations.DecoderAcceptsWellFormedCommands : Prop :=
  ∀ w : Command, (∃ i, decode w = .ok i) ↔ w.wellFormed = true

/-- Words written out from 30_encoding.md R60, R62 and R66 decode to the operation they stand for, one or
more of every family. -/
def Obligations.SpecWordsDecode : Prop :=
  decode 0b0000000000000001 = .ok (.decU .u8) ∧
  decode 0b0000000000100011 = .ok (.encFltU .u16) ∧
  decode 0b0000000001000010 = .ok (.encIntU .u32) ∧
  decode 0b0000000010000100 = .ok .cmpI8 ∧
  decode 0b0000000001101011 = .ok (.childrenU .u64) ∧
  decode 0b0000000010001100 = .ok .siblingI8 ∧
  decode 0b0000000000010001 = .ok (.invChkU .u8) ∧
  decode 0b0000000100011000 = .ok .widenU8U16 ∧
  decode 0b0000000000111001 = .ok .narrowU16U8 ∧
  decode 0b0000001001111010 = .ok .narrowLossyU64U32

/-- Legal format pairs (46_convert.md R166): the eighteen words of its table decode to the conversions,
and any other word with a conversion opcode is refused as ILLEGAL_FMT, unless its pair is legal. -/
def Obligations.ConversionPairsAsTabled : Prop :=
  (decode 0x0118 = .ok .widenU8U16 ∧ decode 0x0218 = .ok .widenU8U32 ∧
    decode 0x0318 = .ok .widenU8U64 ∧ decode 0x0238 = .ok .widenU16U32 ∧
    decode 0x0338 = .ok .widenU16U64 ∧ decode 0x0358 = .ok .widenU32U64) ∧
  (decode 0x0039 = .ok .narrowU16U8 ∧ decode 0x0059 = .ok .narrowU32U8 ∧
    decode 0x0079 = .ok .narrowU64U8 ∧ decode 0x0159 = .ok .narrowU32U16 ∧
    decode 0x0179 = .ok .narrowU64U16 ∧ decode 0x0279 = .ok .narrowU64U32) ∧
  (decode 0x003A = .ok .narrowLossyU16U8 ∧ decode 0x005A = .ok .narrowLossyU32U8 ∧
    decode 0x007A = .ok .narrowLossyU64U8 ∧ decode 0x015A = .ok .narrowLossyU32U16 ∧
    decode 0x017A = .ok .narrowLossyU64U16 ∧ decode 0x027A = .ok .narrowLossyU64U32) ∧
  ∀ w : Command, 0x18 ≤ w.opField → w.opField ≤ 0x1A →
    (decode w = .error .illegalFmt ↔
      ¬ (w.fmtField ≤ 3 ∧ w.fmt2Field ≤ 3 ∧
        (w.opField = 0x18 → w.fmtField < w.fmt2Field) ∧
        (w.opField ≠ 0x18 → w.fmt2Field < w.fmtField)))

/-- A step runs the decoded instruction on the ports as they stand, and shows the decoder's FAULT where
there is none. -/
def Obligations.StepRunsDecodedInstruction : Prop :=
  ∀ s : State,
    (∀ i, decode s.req.cmd = .ok i → step s = exec i s) ∧
    (∀ c, decode s.req.cmd = .error c → step s = .next (s.faulted (causeNumber c)))

/-- Reserved opcodes (R67): whatever the other fields and operands hold. -/
def Obligations.ReservedOpcodesFault : Prop :=
  ∀ s : State,
    (s.req.cmd.opField = 0x00 ∨ (0x05 ≤ s.req.cmd.opField ∧ s.req.cmd.opField ≤ 0x07) ∨
      s.req.cmd.opField = 0x0E ∨ s.req.cmd.opField = 0x0F ∨
      (0x13 ≤ s.req.cmd.opField ∧ s.req.cmd.opField ≤ 0x17) ∨ 0x1B ≤ s.req.cmd.opField) →
    step s = .next (s.faulted 2)

/-- Every refusal of R65, R67, R68 and R141, in the order of R179 (steps 1 to 5). -/
def Obligations.RefusedRequestsFaultInOrder : Prop :=
  ∀ (s : State) (c : FaultCause),
    s.req.refusal = some c → step s = .next (s.faulted (causeNumber c))

/-- A request that passes steps 1 to 5 of R179 is answered by its own instruction, and the only FAULT left
is INVERT_ZERO, from the unsigned `INV` of zero (R177, R179). -/
def Obligations.AcceptedRequestsRunTheirInstruction : Prop :=
  ∀ s : State, s.req.refusal = none →
    ∃ (i : Instr) (t : State), decode s.req.cmd = .ok i ∧ exec i s = .next t ∧ step s = .next t ∧
      (t.rsp.status = 0b11 ↔ (∃ f, i = .invU f) ∧ s.req.a = 0#64) ∧
      (t.rsp.status = 0b11 → t.rsp.r0 = 1)

/-- `rsp = F(req)` (R25): one function of the request word gives the response of every step, and a step
changes nothing else. -/
def Obligations.ResponseIsFunctionOfRequest : Prop :=
  ∃ F : Request → Response, ∀ s : State, step s = .next { s with rsp := F s.req }

/-- Every instruction, at every state, ends in a response; the request port stays as it is. -/
def Obligations.EveryInstructionAnswersAndKeepsRequest : Prop :=
  ∀ (i : Instr) (s : State), ∃ r : Response, exec i s = .next { s with rsp := r }

/-- The frame of every instruction: what it answers depends on the operand ports alone, never on the
response that stood there before. -/
def Obligations.ExecIgnoresEarlierResponse : Prop :=
  ∀ (i : Instr) (s s' t t' : State), s.req.a = s'.req.a → s.req.b = s'.req.b →
    exec i s = .next t → exec i s' = .next t' → t.rsp = t'.rsp ∧ t.req = s.req

/-- An earlier request, whatever its outcome, is forgotten: the next request gets the response it would
get alone (60_exceptions.md R181, 20_memory.md R45). -/
def Obligations.EarlierRequestIsForgotten : Prop :=
  ∀ (s t u v : State) (r r' : Request),
    step (s.present r) = .next t → step (t.present r') = .next u →
    step (s.present r') = .next v → u.rsp = v.rsp

/-- The invariant: the response on the port is one that the request on the port can have. -/
def Obligations.StepKeepsResponseSound : Prop :=
  ∀ s t : State, responseSound s → step s = .next t → responseSound t

/-- The invariant holds at reset. The reset state's ports are the model's choice (log 1, log 2). -/
def Obligations.ResetResponseSound : Prop := responseSound State.reset

/-- The complete list of NONE cases (R178), for every format, and that no other instruction has one. -/
def Obligations.NoneCasesAreComplete : Prop :=
  (∀ (f : UFmt) (x : BitVec f.width) (s t : State), s.presents x →
    (∀ i, i = .parentU f ∨ i = .siblingU f → exec i s = .next t →
      (t.rsp.status = 0b01 ↔ x = 0#_ ∨ x.toNat = 2 ^ (f.width - 1))) ∧
    (∀ i, i = .lchildU f ∨ i = .rchildU f ∨ i = .childrenU f → exec i s = .next t →
      (t.rsp.status = 0b01 ↔ x = 0#_ ∨ x.toNat % 2 = 1)) ∧
    (exec (.invChkU f) s = .next t → (t.rsp.status = 0b01 ↔ x = 0#_))) ∧
  (∀ (x : BitVec 8) (s t : State), s.presents x → x ≠ 0x80#8 →
    (∀ i, i = .parentI8 ∨ i = .siblingI8 → exec i s = .next t →
      (t.rsp.status = 0b01 ↔ x = 0#_ ∨ x.toNat % 128 = 0x40)) ∧
    (∀ i, i = .lchildI8 ∨ i = .rchildI8 ∨ i = .childrenI8 → exec i s = .next t →
      (t.rsp.status = 0b01 ↔ x = 0#_ ∨ x.toNat % 2 = 1)) ∧
    (exec .invChkI8 s = .next t → (t.rsp.status = 0b01 ↔ x = 0#_))) ∧
  (∀ (i : Instr) (s t : State), mayBeAbsent i = false → exec i s = .next t → t.rsp.status ≠ 0b01)

/-! ### The Decoder -/

/-- `DEC.U*` (R80): the pair of `decode_W`, zero-extended without loss. -/
def Obligations.DecUnsignedAnswers : Prop :=
  ∀ (f : UFmt) (x : BitVec f.width) (s : State), s.presents x →
    ∃ n d : Word, exec (.decU f) s = .next (s.ok n d) ∧
      n.toNat = (decodeFrac x).num ∧ d.toNat = (decodeFrac x).den

/-- The special patterns (R82) and the all-ones pattern (R52), at every width. -/
def Obligations.DecodeSpecialPatterns : Prop :=
  ∀ w : Nat, 0 < w →
    decodeFrac (0#w) = ⟨0, 1⟩ ∧ decodeFrac (BitVec.twoPow w (w - 1)) = ⟨1, 1⟩ ∧
    decodeFrac (1#w) = ⟨1, w⟩ ∧ decodeFrac (BitVec.allOnes w) = ⟨w, 1⟩

/-- The decoder's bounds compute the tree of R52: the value by nearest smaller and larger ancestors
(40_decode.md R84 item 1). -/
def Obligations.DecodeIsTreeValue : Prop :=
  ∀ (w : Nat) (x : BitVec w),
    (x ≠ 0#_ → decodeFrac x = patternNode x) ∧ (decodeFrac x).toRat = patternValue x

/-- Every numerator and denominator, of the result and of every step on the way, is at most F(W + 1) and
fits in W bits (R83). -/
def Obligations.DecodeFitsWidth : Prop :=
  ∀ (w : Nat) (x : BitVec w), 0 < w →
    (decodeFrac x).num ≤ Nat.fib (w + 1) ∧ (decodeFrac x).den ≤ Nat.fib (w + 1) ∧
    Nat.fib (w + 1) < 2 ^ w ∧
    ∀ k, (boundsAlong ((pathBits x).take k)).mid.num < 2 ^ w ∧
      (boundsAlong ((pathBits x).take k)).mid.den < 2 ^ w

/-- The decoder's result is in lowest terms with a denominator of at least 1 (40_decode.md R84 item 2). -/
def Obligations.DecodeLowestTerms : Prop :=
  ∀ (w : Nat) (x : BitVec w),
    Nat.Coprime (decodeFrac x).num (decodeFrac x).den ∧ 1 ≤ (decodeFrac x).den

/-- Distinct patterns decode to distinct fractions (40_decode.md R84 item 4). -/
def Obligations.DecodeInjective : Prop :=
  ∀ (w : Nat) (x y : BitVec w), decodeFrac x = decodeFrac y → x = y

/-! ### The integer Encoder -/

/-- `ENC_INT.U*` (R90, R91): the domain error exactly above W; else the pattern with the top n bits set. -/
def Obligations.EncIntUnsigned : Prop :=
  ∀ (f : UFmt) (s : State), s.req.b = 0#64 →
    (f.width < s.req.a.toNat → exec (.encIntU f) s = .next (s.domainError 1)) ∧
    (s.req.a.toNat ≤ f.width → ∃ r : BitVec f.width,
      exec (.encIntU f) s = .next (s.ok (r.setWidth 64) 0) ∧
      ∀ i < f.width, r.getLsbD i = decide (f.width - s.req.a.toNat ≤ i))

/-- The guarantees of `ENC_INT` (R92) with its table for W = 8. -/
def Obligations.EncIntGuarantees : Prop :=
  (∀ w n : Nat, n ≤ w → decodeFrac (encInt w n) = ⟨n, 1⟩) ∧
  (∀ w n m : Nat, n < m → m ≤ w → (encInt w n).toNat < (encInt w m).toNat) ∧
  (∀ w n : Nat, 1 ≤ n → n < w → rightChild (encInt w n) = some (encInt w (n + 1))) ∧
  (List.range 9).map (fun n => (encInt 8 n).toNat) =
    [0x00, 0x80, 0xC0, 0xE0, 0xF0, 0xF8, 0xFC, 0xFE, 0xFF] ∧
  (∀ s : State, s.presents 9#64 → exec (.encIntU .u8) s = .next (s.domainError 1))

/-! ### The float Encoder -/

/-- `ENC_FLT.U*` (R95): NaN, then sign, then infinity, classified by arithmetic on the operand (R57); every
other operand completes with the search of R98. -/
def Obligations.EncFltUnsigned : Prop :=
  ∀ (f : UFmt) (s : State), s.req.b = 0#64 →
    let e := s.req.a.toNat / 2 ^ 52 % 2 ^ 11
    let m := s.req.a.toNat % 2 ^ 52
    (e = 0x7FF → m ≠ 0 → exec (.encFltU f) s = .next (s.domainError 4)) ∧
    (¬ (e = 0x7FF ∧ m ≠ 0) → 2 ^ 63 ≤ s.req.a.toNat →
      exec (.encFltU f) s = .next (s.domainError 2)) ∧
    (e = 0x7FF → m = 0 → s.req.a.toNat < 2 ^ 63 →
      exec (.encFltU f) s = .next (s.domainError 3)) ∧
    (e ≠ 0x7FF → s.req.a.toNat < 2 ^ 63 →
      exec (.encFltU f) s =
        .next (s.ok ((encFlt .exact f.width (magUnits s.req.a)).setWidth 64) 0))

/-- The comparison is the order of the rationals `mn` and `v · md`, for every finite operand (R96, R57);
`exact` is the mode the model takes. -/
def Obligations.FcmpIsRationalOrder : Prop :=
  fcmpMode = .exact ∧
  ∀ (p : Frac) (a : Word), fltExponent a ≠ 0x7FF → 1 ≤ p.den →
    (fcmp .exact p (magUnits a) = .gt ↔ (p.num : ℚ) > floatMagnitude a * p.den) ∧
    (fcmp .exact p (magUnits a) = .eq ↔ (p.num : ℚ) = floatMagnitude a * p.den) ∧
    (fcmp .exact p (magUnits a) = .lt ↔ (p.num : ℚ) < floatMagnitude a * p.den)

/-- The two comparison arithmetics agree whenever the product is a binary64 (R97): at most 53 significant
bits and below 2^1024. `v` counts units of 2^(−1074). -/
def Obligations.FcmpModesAgreeOnExactProducts : Prop :=
  ∀ (p : Frac) (v m e : Nat), v * p.den = m * 2 ^ e → m < 2 ^ 53 → v * p.den < 2 ^ 2098 →
    fcmp .binary64Rne p v = fcmp .exact p v

/-- The corner cases of `ENC_FLT.U*` (R101), for `v` the exact rational value of the operand. -/
def Obligations.EncFltCornerCases : Prop :=
  ∀ (f : UFmt) (s : State), s.req.b = 0#64 → fltSign s.req.a = false → fltExponent s.req.a ≠ 0x7FF →
    let v := floatMagnitude s.req.a
    let W : ℚ := (f.width : ℚ)
    (v < 1 / W → exec (.encFltU f) s = .next (s.ok 2 0)) ∧
    (1 / W ≤ v → v < 1 / (W - 1) → exec (.encFltU f) s = .next (s.ok 1 0)) ∧
    (∀ n : Nat, 1 ≤ n → n ≤ f.width → v = n →
      exec (.encFltU f) s = .next (s.ok ((encInt f.width n).setWidth 64) 0)) ∧
    (W - 1 < v → v < W →
      exec (.encFltU f) s = .next (s.ok ((BitVec.allOnes f.width).setWidth 64) 0)) ∧
    (W < v →
      exec (.encFltU f) s = .next (s.ok ((BitVec.allOnes f.width <<< 1).setWidth 64) 0))

/-- Exact round trip (41_encode.md R102 item 2): an operand that equals a node's value encodes to that
node. -/
def Obligations.EncFltExactRoundTrip : Prop :=
  ∀ (f : UFmt) (x : BitVec f.width) (s : State), x ≠ 0#_ → s.req.b = 0#64 →
    fltSign s.req.a = false → fltExponent s.req.a ≠ 0x7FF →
    floatMagnitude s.req.a = patternValue x →
    exec (.encFltU f) s = .next (s.ok (x.setWidth 64) 0)

/-- The float search never gives the all-zero pattern, in either arithmetic (41_encode.md R102 item 3). -/
def Obligations.EncFltNeverZero : Prop :=
  ∀ (mode : FcmpMode) (w v : Nat), 0 < w → encFlt mode w v ≠ 0#w

/-- The rounding rule in words (R100). `path` is the search path of `v` to the maximal leaf L, when no node
above L and not L itself equals `v`; `mid k` is its node at depth k. The result is the deepest proper
ancestor of L on L's side of `v`, or L itself when there is none. When some node on the way equals `v`, it
is that node (second clause). -/
def Obligations.EncFltRoundsToLeafSide : Prop :=
  ∀ (w v : Nat) (path : List Bool), 0 < w →
    let mid := fun k => (boundsAlong (path.take k)).mid
    let side := fun k => fcmp .exact (mid k) v
    (path.length = w - 1 →
      (∀ k < w - 1, side k ≠ .eq ∧ (path[k]? = some true ↔ side k = .lt)) → side (w - 1) ≠ .eq →
      encFlt .exact w v ≠ 0#w ∧
      ∃ j, pathBits (encFlt .exact w v) = path.take j ∧
        ((j < w - 1 ∧ side j = side (w - 1) ∧ ∀ k, j < k → k < w - 1 → side k ≠ side (w - 1)) ∨
          (j = w - 1 ∧ ∀ k < w - 1, side k ≠ side (w - 1)))) ∧
    (path.length ≤ w - 1 →
      (∀ k < path.length, side k ≠ .eq ∧ (path[k]? = some true ↔ side k = .lt)) →
      side path.length = .eq →
      encFlt .exact w v ≠ 0#w ∧ pathBits (encFlt .exact w v) = path)

/-! ### The Comparator -/

/-- `CMP.U*` (R111): the unsigned comparison, coded 11, 00, 01. -/
def Obligations.CmpUnsigned : Prop :=
  ∀ (f : UFmt) (x y : BitVec f.width) (s : State), s.presentsPair x y →
    (x.toNat < y.toNat → exec (.cmpU f) s = .next (s.ok 0b11 0)) ∧
    (x.toNat = y.toNat → exec (.cmpU f) s = .next (s.ok 0b00 0)) ∧
    (y.toNat < x.toNat → exec (.cmpU f) s = .next (s.ok 0b01 0))

/-- Order isomorphism (R112), at every width: the order of patterns is the order of the decoded
fractions. -/
def Obligations.PatternOrderIsValueOrder : Prop :=
  ∀ (w : Nat) (x y : BitVec w),
    (x.toNat < y.toNat ↔
      (decodeFrac x).num * (decodeFrac y).den < (decodeFrac y).num * (decodeFrac x).den) ∧
    (x = y ↔
      (decodeFrac x).num * (decodeFrac y).den = (decodeFrac y).num * (decodeFrac x).den)

/-- For a non-leaf node, its left subtree lies in the open interval below it and its right subtree in the
open interval above it, each of length 2^t (42_compare.md R113). -/
def Obligations.SubtreesAreIntervals : Prop :=
  ∀ (w : Nat) (x y : BitVec w) (t : Nat), IsMarker x t → 0 < t → y ≠ 0#_ →
    (pathBits x ++ [false] <+: pathBits y ↔ x.toNat - 2 ^ t < y.toNat ∧ y.toNat < x.toNat) ∧
    (pathBits x ++ [true] <+: pathBits y ↔ x.toNat < y.toNat ∧ y.toNat < x.toNat + 2 ^ t)

/-! ### The Inverter -/

/-- The three entry points (R115): on a nonzero pattern all three flip the bits above the marker (R117); on
zero they fault, answer NONE, and answer zero. -/
def Obligations.InverterEntryPoints : Prop :=
  ∀ (f : UFmt) (x : BitVec f.width) (s : State), s.presents x →
    (x = 0#_ →
      exec (.invU f) s = .next (s.faulted 1) ∧ exec (.invChkU f) s = .next s.absent ∧
      exec (.invUnchkU f) s = .next (s.ok 0 0)) ∧
    (∀ t, IsMarker x t → ∃ r : BitVec f.width,
      exec (.invU f) s = .next (s.ok (r.setWidth 64) 0) ∧
      exec (.invChkU f) s = .next (s.ok (r.setWidth 64) 0) ∧
      exec (.invUnchkU f) s = .next (s.ok (r.setWidth 64) 0) ∧
      ∀ i < f.width, r.getLsbD i = if t < i then !x.getLsbD i else x.getLsbD i)

/-- The guarantees of the Inverter (R120), at every width. -/
def Obligations.InverterGuarantees : Prop :=
  ∀ (w : Nat) (x : BitVec w), x ≠ 0#_ →
    invert (invert x) = x ∧
    decodeFrac (invert x) = ⟨(decodeFrac x).den, (decodeFrac x).num⟩ ∧
    (depth (invert x) = depth x ∧ isLeaf (invert x) = isLeaf x ∧
      (invert x = x ↔ x = BitVec.twoPow w (w - 1))) ∧
    (∀ y : BitVec w, y ≠ 0#_ → (x.toNat < y.toNat ↔ (invert y).toNat < (invert x).toNat)) ∧
    ((leftChild x).map invert = rightChild (invert x) ∧
      (parent x).map invert = parent (invert x))

/-! ### The Navigator -/

/-- `PARENT.U*` (R126). -/
def Obligations.ParentUnsigned : Prop :=
  ∀ (f : UFmt) (x : BitVec f.width) (s : State), s.presents x →
    decode (commandOf (formatNumber f) 0x08) = .ok (.parentU f) ∧
    (x = 0#_ → exec (.parentU f) s = .next s.absent) ∧
    ∀ t, IsMarker x t →
      (t = f.width - 1 → exec (.parentU f) s = .next s.absent) ∧
      (t < f.width - 1 → ∃ r : BitVec f.width,
        exec (.parentU f) s = .next (s.ok (r.setWidth 64) 0) ∧
        r = (x &&& ~~~(1#f.width <<< t) ||| 1#f.width <<< (t + 1)) ∧ IsMarker r (t + 1) ∧
        r.toNat = if x.getLsbD (t + 1) then x.toNat - 2 ^ t else x.toNat + 2 ^ t)

/-- `LCHILD.U*` (R127). -/
def Obligations.LchildUnsigned : Prop :=
  ∀ (f : UFmt) (x : BitVec f.width) (s : State), s.presents x →
    decode (commandOf (formatNumber f) 0x09) = .ok (.lchildU f) ∧
    (x = 0#_ → exec (.lchildU f) s = .next s.absent) ∧
    ∀ t, IsMarker x t →
      (t = 0 → exec (.lchildU f) s = .next s.absent) ∧
      (0 < t → ∃ r : BitVec f.width,
        exec (.lchildU f) s = .next (s.ok (r.setWidth 64) 0) ∧
        r = (x &&& ~~~(1#f.width <<< t) ||| 1#f.width <<< (t - 1)) ∧ IsMarker r (t - 1) ∧
        r.toNat = x.toNat - 2 ^ (t - 1))

/-- `RCHILD.U*` (R128). -/
def Obligations.RchildUnsigned : Prop :=
  ∀ (f : UFmt) (x : BitVec f.width) (s : State), s.presents x →
    decode (commandOf (formatNumber f) 0x0A) = .ok (.rchildU f) ∧
    (x = 0#_ → exec (.rchildU f) s = .next s.absent) ∧
    ∀ t, IsMarker x t →
      (t = 0 → exec (.rchildU f) s = .next s.absent) ∧
      (0 < t → ∃ r : BitVec f.width,
        exec (.rchildU f) s = .next (s.ok (r.setWidth 64) 0) ∧
        r = (x ||| 1#f.width <<< (t - 1)) ∧ IsMarker r (t - 1) ∧ r.toNat = x.toNat + 2 ^ (t - 1))

/-- `CHILDREN.U*` (R129). -/
def Obligations.ChildrenUnsigned : Prop :=
  ∀ (f : UFmt) (x : BitVec f.width) (s : State), s.presents x →
    decode (commandOf (formatNumber f) 0x0B) = .ok (.childrenU f) ∧
    (x = 0#_ → exec (.childrenU f) s = .next s.absent) ∧
    ∀ t, IsMarker x t →
      (t = 0 → exec (.childrenU f) s = .next s.absent) ∧
      (0 < t → ∃ l r : BitVec f.width,
        exec (.childrenU f) s = .next (s.ok (l.setWidth 64) (r.setWidth 64)) ∧
        l = (x &&& ~~~(1#f.width <<< t) ||| 1#f.width <<< (t - 1)) ∧ r = (x ||| 1#f.width <<< (t - 1)) ∧
        exec (.lchildU f) s = .next (s.ok (l.setWidth 64) 0) ∧
        exec (.rchildU f) s = .next (s.ok (r.setWidth 64) 0))

/-- `SIBLING.U*` (R130). -/
def Obligations.SiblingUnsigned : Prop :=
  ∀ (f : UFmt) (x : BitVec f.width) (s : State), s.presents x →
    decode (commandOf (formatNumber f) 0x0C) = .ok (.siblingU f) ∧
    (x = 0#_ → exec (.siblingU f) s = .next s.absent) ∧
    ∀ t, IsMarker x t →
      (t = f.width - 1 → exec (.siblingU f) s = .next s.absent) ∧
      (t < f.width - 1 → ∃ r : BitVec f.width,
        exec (.siblingU f) s = .next (s.ok (r.setWidth 64) 0) ∧
        r = x ^^^ 1#f.width <<< (t + 1) ∧ IsMarker r t ∧ depth r = depth x ∧ sibling r = some x ∧
        parent r = parent x)

/-- `ISLEAF.U*` (R131). -/
def Obligations.IsleafUnsigned : Prop :=
  ∀ (f : UFmt) (x : BitVec f.width) (s : State), s.presents x →
    decode (commandOf (formatNumber f) 0x0D) = .ok (.isleafU f) ∧
    exec (.isleafU f) s = .next (s.ok (if x.toNat % 2 = 1 then 1 else 0) 0) ∧
    (x.toNat % 2 = 1 ↔ IsMarker x 0)

/-- The guarantees of the Navigator (R132), at every width of at least 2. -/
def Obligations.NavigatorGuarantees : Prop :=
  ∀ (w : Nat) (x : BitVec w), 2 ≤ w → x ≠ 0#_ →
    (isLeaf x = false → ∃ l r, leftChild x = some l ∧ rightChild x = some r ∧
      children x = some (l, r) ∧ parent l = some x ∧ parent r = some x ∧
      l.toNat < x.toNat ∧ x.toNat < r.toNat ∧
      patternValue l < patternValue x ∧ patternValue x < patternValue r ∧
      (let b := boundsAlong (pathBits x)
       decodeFrac l = ⟨b.lower.num + b.mid.num, b.lower.den + b.mid.den⟩ ∧
       decodeFrac r = ⟨b.mid.num + b.upper.num, b.mid.den + b.upper.den⟩) ∧
      depth l = depth x + 1 ∧ depth r = depth x + 1) ∧
    (isLeaf x = true ↔ leftChild x = none ∧ rightChild x = none) ∧
    (∀ p, parent x = some p → ∃ y, sibling x = some y ∧ parent y = some p ∧
      (children p = some (x, y) ∨ children p = some (y, x)) ∧
      depth p + 1 = depth x ∧ depth y = depth x) ∧
    (∀ path : List Bool,
      path.foldlM (fun y bit => if bit then rightChild y else leftChild y)
        (BitVec.twoPow w (w - 1)) = some x ↔ path = pathBits x)

/-! ### The signed variant -/

/-- `DEC.I8` (R142). -/
def Obligations.DecSigned : Prop :=
  ∀ (x : BitVec 8) (s : State), s.presents x →
    let p := decodeFrac (x.setWidth 7)
    let n : Int := if 128 ≤ x.toNat then -(p.num : Int) else p.num
    decode 0x0081 = .ok .decI8 ∧
    (x = 0x80#8 → exec .decI8 s = .next (s.faulted 6)) ∧
    (x ≠ 0x80#8 →
      exec .decI8 s = .next (s.ok ((BitVec.ofInt 8 n).setWidth 64) (BitVec.ofNat 64 p.den))) ∧
    p.num ≤ 21 ∧ 1 ≤ p.den ∧ p.den ≤ 21

/-- `ENC_INT.I8` (R143), −128 ≤ n ≤ 127. -/
def Obligations.EncIntSigned : Prop :=
  decode 0x0082 = .ok .encIntI8 ∧
  (∀ (n : Int) (s : State), -128 ≤ n → n ≤ 127 → s.presents (BitVec.ofInt 8 n) →
    (7 < n.natAbs → exec .encIntI8 s = .next (s.domainError 1)) ∧
    (n.natAbs ≤ 7 → exec .encIntI8 s = .next (s.ok (BitVec.ofNat 64
      ((if n < 0 then 128 else 0) + (encInt 7 n.natAbs).toNat)) 0))) ∧
  (∀ s : State, s.req.b = 0#64 → 256 ≤ s.req.a.toNat → exec .encIntI8 s = .next (s.faulted 5))

/-- `ENC_FLT.I8` (R144): NaN, then infinity of either sign; else the magnitude, never zero, with the sign
copied; and the corner cases ±6/1, ±7/1 and those of a magnitude below 1/7. -/
def Obligations.EncFltSigned : Prop :=
  decode 0x0083 = .ok .encFltI8 ∧
  ∀ s : State, s.req.b = 0#64 →
    let e := s.req.a.toNat / 2 ^ 52 % 2 ^ 11
    let m := s.req.a.toNat % 2 ^ 52
    let sg := if 2 ^ 63 ≤ s.req.a.toNat then 128 else 0
    (e = 0x7FF → m ≠ 0 → exec .encFltI8 s = .next (s.domainError 4)) ∧
    (e = 0x7FF → m = 0 → exec .encFltI8 s = .next (s.domainError 3)) ∧
    (e ≠ 0x7FF →
      encFlt .exact 7 (magUnits s.req.a) ≠ 0#7 ∧
      exec .encFltI8 s = .next (s.ok (BitVec.ofNat 64
        (sg + (encFlt .exact 7 (magUnits s.req.a)).toNat)) 0) ∧
      (floatMagnitude s.req.a < 1 / 7 → exec .encFltI8 s = .next (s.ok (BitVec.ofNat 64 (sg + 0x02)) 0)) ∧
      (6 < floatMagnitude s.req.a → floatMagnitude s.req.a < 7 →
        exec .encFltI8 s = .next (s.ok (BitVec.ofNat 64 (sg + 0x7F)) 0)) ∧
      (7 < floatMagnitude s.req.a → exec .encFltI8 s = .next (s.ok (BitVec.ofNat 64 (sg + 0x7E)) 0)))

/-- `CMP.I8` (R145): signs first, the magnitude order reversed when both are negative. -/
def Obligations.CmpSigned : Prop :=
  decode 0x0084 = .ok .cmpI8 ∧
  ∀ (x y : BitVec 8) (s : State), s.presentsPair x y →
    let ucmp : Nat → Nat → Word := fun p q => if p < q then 0b11 else if p = q then 0b00 else 0b01
    let mx := x.toNat % 128
    let my := y.toNat % 128
    (x = 0x80#8 ∨ y = 0x80#8 → exec .cmpI8 s = .next (s.faulted 6)) ∧
    (x ≠ 0x80#8 → y ≠ 0x80#8 →
      exec .cmpI8 s = .next (s.ok
        (if x.toNat < 128 ∧ y.toNat < 128 then ucmp mx my
         else if 128 ≤ x.toNat ∧ y.toNat < 128 then 0b11
         else if x.toNat < 128 ∧ 128 ≤ y.toNat then 0b01
         else ucmp my mx) 0))

/-- The order `CMP.I8` reports is the order of the signed values (45_signed.md R155 item 3). -/
def Obligations.SignedOrderIsValueOrder : Prop :=
  ∀ (x y : BitVec 8) (s : State), s.presentsPair x y → x ≠ 0x80#8 → y ≠ 0x80#8 →
    (signedValue x < signedValue y → exec .cmpI8 s = .next (s.ok 0b11 0)) ∧
    (signedValue x = signedValue y → exec .cmpI8 s = .next (s.ok 0b00 0)) ∧
    (signedValue y < signedValue x → exec .cmpI8 s = .next (s.ok 0b01 0))

/-- `INV.I8`, `INV_CHK.I8` and `INV_UNCHK.I8` (R146, R147, R148): `0x7F`, NONE and zero on zero; else the
bits between the sign and the marker flip and the sign is kept. -/
def Obligations.InverterSigned : Prop :=
  decode 0x0090 = .ok .invI8 ∧ decode 0x0091 = .ok .invChkI8 ∧ decode 0x0092 = .ok .invUnchkI8 ∧
  ∀ (x : BitVec 8) (s : State), s.presents x →
    (x = 0x80#8 → exec .invI8 s = .next (s.faulted 6) ∧ exec .invChkI8 s = .next (s.faulted 6) ∧
      exec .invUnchkI8 s = .next (s.faulted 6)) ∧
    (x = 0#_ → exec .invI8 s = .next (s.ok 0x7F 0) ∧ exec .invChkI8 s = .next s.absent ∧
      exec .invUnchkI8 s = .next (s.ok 0 0)) ∧
    (∀ t < 7, IsMarker x t → ∃ r : BitVec 8,
      exec .invI8 s = .next (s.ok (r.setWidth 64) 0) ∧
      exec .invChkI8 s = .next (s.ok (r.setWidth 64) 0) ∧
      exec .invUnchkI8 s = .next (s.ok (r.setWidth 64) 0) ∧
      ∀ i < 8, r.getLsbD i = if t < i ∧ i < 7 then !x.getLsbD i else x.getLsbD i)

/-- `PARENT.I8`, `SIBLING.I8` and `ISLEAF.I8` (R149, R153, R154). -/
def Obligations.ParentSiblingIsleafSigned : Prop :=
  decode 0x0088 = .ok .parentI8 ∧ decode 0x008C = .ok .siblingI8 ∧ decode 0x008D = .ok .isleafI8 ∧
  ∀ (x : BitVec 8) (s : State), s.presents x →
    (x = 0x80#8 → exec .parentI8 s = .next (s.faulted 6) ∧ exec .siblingI8 s = .next (s.faulted 6) ∧
      exec .isleafI8 s = .next (s.faulted 6)) ∧
    (x = 0#_ → exec .parentI8 s = .next s.absent ∧ exec .siblingI8 s = .next s.absent) ∧
    (x ≠ 0x80#8 →
      exec .isleafI8 s = .next (s.ok (if x.toNat % 2 = 1 then 1 else 0) 0)) ∧
    (∀ t < 7, IsMarker x t →
      (t = 6 → exec .parentI8 s = .next s.absent ∧ exec .siblingI8 s = .next s.absent) ∧
      (t < 6 →
        exec .parentI8 s =
          .next (s.ok ((x &&& ~~~(1#8 <<< t) ||| 1#8 <<< (t + 1)).setWidth 64) 0) ∧
        exec .siblingI8 s = .next (s.ok ((x ^^^ 1#8 <<< (t + 1)).setWidth 64) 0)))

/-- `LCHILD.I8`, `RCHILD.I8` and `CHILDREN.I8` (R150, R151, R152): left is toward the smaller magnitude, so
the left child of a negative node is the larger value. -/
def Obligations.ChildrenSigned : Prop :=
  decode 0x0089 = .ok .lchildI8 ∧ decode 0x008A = .ok .rchildI8 ∧ decode 0x008B = .ok .childrenI8 ∧
  ∀ (x : BitVec 8) (s : State), s.presents x →
    (x = 0x80#8 → exec .lchildI8 s = .next (s.faulted 6) ∧ exec .rchildI8 s = .next (s.faulted 6) ∧
      exec .childrenI8 s = .next (s.faulted 6)) ∧
    (x = 0#_ ∨ x.toNat % 2 = 1 → exec .lchildI8 s = .next s.absent ∧
      exec .rchildI8 s = .next s.absent ∧ exec .childrenI8 s = .next s.absent) ∧
    (∀ t < 7, 0 < t → IsMarker x t →
      let l : BitVec 8 := x &&& ~~~(1#8 <<< t) ||| 1#8 <<< (t - 1)
      let r : BitVec 8 := x ||| 1#8 <<< (t - 1)
      exec .lchildI8 s = .next (s.ok (l.setWidth 64) 0) ∧
      exec .rchildI8 s = .next (s.ok (r.setWidth 64) 0) ∧
      exec .childrenI8 s = .next (s.ok (l.setWidth 64) (r.setWidth 64)) ∧
      (x.toNat < 128 → signedValue l < signedValue x) ∧
      (128 ≤ x.toNat → signedValue x < signedValue l))

/-- No operation in `I8` returns `0x80` (45_signed.md R155 item 1). -/
def Obligations.NoSignedNegativeZero : Prop :=
  ∀ (i : Instr) (s t : State),
    i ∈ [.encIntI8, .encFltI8, .parentI8, .lchildI8, .rchildI8, .childrenI8, .siblingI8, .invI8,
      .invChkI8, .invUnchkI8] →
    exec i s = .next t → t.rsp.r0 ≠ 0x80 ∧ t.rsp.r1 ≠ 0x80

/-- Round trips of the signed variant (45_signed.md R155 items 2 and 4), through the machine: `DEC` after
`ENC_INT`, `INV` after `INV`, and `DEC` after `INV`. -/
def Obligations.SignedRoundTrips : Prop :=
  (∀ (n : Int) (s t : State), -7 ≤ n → n ≤ 7 → s.presents (BitVec.ofInt 8 n) →
    exec .encIntI8 s = .next t →
    exec .decI8 (t.present { cmd := 0x0081, a := t.rsp.r0, b := 0 }) =
      .next ((t.present { cmd := 0x0081, a := t.rsp.r0, b := 0 }).ok
        ((BitVec.ofInt 8 n).setWidth 64) 1)) ∧
  (∀ (x : BitVec 8) (s t : State), x ≠ 0#_ → x ≠ 0x80#8 → s.presents x → exec .invI8 s = .next t →
    (let u := t.present { cmd := 0x0090, a := t.rsp.r0, b := 0 }
     exec .invI8 u = .next (u.ok (x.setWidth 64) 0)) ∧
    (let u := t.present { cmd := 0x0081, a := t.rsp.r0, b := 0 }
     let p := decodeFrac (x.setWidth 7)
     let n : Int := if 128 ≤ x.toNat then -(p.den : Int) else p.den
     exec .decI8 u = .next (u.ok ((BitVec.ofInt 8 n).setWidth 64) (BitVec.ofNat 64 p.num))))

/-! ### Conversions -/

/-- `WIDEN` in its six format pairs (R167). -/
def Obligations.WidenAnswers : Prop :=
  Widens .widenU8U16 8 16 ∧ Widens .widenU8U32 8 32 ∧ Widens .widenU8U64 8 64 ∧
  Widens .widenU16U32 16 32 ∧ Widens .widenU16U64 16 64 ∧ Widens .widenU32U64 32 64

/-- `NARROW` in its six format pairs (R168). -/
def Obligations.NarrowAnswers : Prop :=
  Narrows .narrowU16U8 16 8 ∧ Narrows .narrowU32U8 32 8 ∧ Narrows .narrowU64U8 64 8 ∧
  Narrows .narrowU32U16 32 16 ∧ Narrows .narrowU64U16 64 16 ∧ Narrows .narrowU64U32 64 32

/-- `NARROW_LOSSY` in its six format pairs (R169). -/
def Obligations.NarrowLossyAnswers : Prop :=
  NarrowsLossily .narrowLossyU16U8 16 8 ∧ NarrowsLossily .narrowLossyU32U8 32 8 ∧
  NarrowsLossily .narrowLossyU64U8 64 8 ∧ NarrowsLossily .narrowLossyU32U16 32 16 ∧
  NarrowsLossily .narrowLossyU64U16 64 16 ∧ NarrowsLossily .narrowLossyU64U32 64 32

/-- A lossy narrowing of a nonzero pattern keeps the first `Wt − 1` path decisions: it is the pattern, or
its ancestor at depth `Wt − 1` (46_convert.md R169). -/
def Obligations.NarrowLossyIsAncestor : Prop :=
  ∀ (ws wt : Nat) (x : BitVec ws), 0 < wt → wt < ws → x ≠ 0#_ →
    narrowLossyPattern wt x ≠ 0#_ ∧
    pathBits (narrowLossyPattern wt x) = (pathBits x).take (wt - 1)

/-- The guarantees of the conversions (R170), for every pair of widths. -/
def Obligations.ConversionGuarantees : Prop :=
  (∀ (ws wt : Nat) (x y : BitVec ws) (z : BitVec wt), ws < wt →
    (decodeFrac (widenPattern wt x) = decodeFrac x ∧
      (x ≠ 0#_ → pathBits (widenPattern wt x) = pathBits x ∧
        depth (widenPattern wt x) = depth x)) ∧
    (lowClear ws (widenPattern wt x) = true ∧ dropLow ws (widenPattern wt x) = x ∧
      (lowClear ws z = true → widenPattern wt (dropLow ws z) = z)) ∧
    (x.toNat < y.toNat ↔ (widenPattern wt x).toNat < (widenPattern wt y).toNat) ∧
    (lowClear ws z = true → narrowLossyPattern ws z = dropLow ws z)) ∧
  (∃ v, depth (widenPattern 16 (encFlt .exact 8 v)) < depth (encFlt .exact 16 v))

/-! ### Named constants -/

/-- The named constants (00_scope.md R9, 30_encoding.md R71): what `ENC_INT`, `INV` and `DEC` make of
them. That `MIN` in `I8` names the smallest positive value is the spec's reading, left open by the source
(log 12). -/
def Obligations.NamedConstantsAsEncoded : Prop :=
  (∀ (f : UFmt) (s : State),
    (s.presents 0#64 → exec (.encIntU f) s = .next (s.ok (zeroPattern (.unsigned f)) 0)) ∧
    (s.presents 1#64 → exec (.encIntU f) s = .next (s.ok (onePattern (.unsigned f)) 0)) ∧
    (s.presents (BitVec.ofNat 64 f.width) →
      exec (.encIntU f) s = .next (s.ok (maxPattern (.unsigned f)) 0)) ∧
    (s.presents (maxPattern (.unsigned f)) →
      exec (.invU f) s = .next (s.ok (minPattern (.unsigned f)) 0) ∧
      exec (.decU f) s = .next (s.ok (BitVec.ofNat 64 f.width) 1)) ∧
    (s.presents (minPattern (.unsigned f)) →
      exec (.decU f) s = .next (s.ok 1 (BitVec.ofNat 64 f.width)))) ∧
  (∀ s : State,
    (s.presents 0#64 → exec .encIntI8 s = .next (s.ok (zeroPattern .i8) 0)) ∧
    (s.presents 1#64 → exec .encIntI8 s = .next (s.ok (onePattern .i8) 0)) ∧
    (s.presents 7#64 → exec .encIntI8 s = .next (s.ok (maxPattern .i8) 0)) ∧
    (s.presents (maxPattern .i8) → exec .invI8 s = .next (s.ok (minPattern .i8) 0)))
end

