-- ==== Sys2Proof/Laws/State.lean ====
section
/-! SUPPORT. One lemma per field per update of the state, and per field of a response. -/

namespace Sys2Proof.Machine

@[simp] theorem State.withResponse_req (s : State) (r : Response) : (s.withResponse r).req = s.req :=
  rfl

@[simp] theorem State.withResponse_rsp (s : State) (r : Response) : (s.withResponse r).rsp = r := rfl

@[simp] theorem State.present_req (s : State) (r : Request) : (s.present r).req = r := rfl

@[simp] theorem State.present_rsp (s : State) (r : Request) : (s.present r).rsp = s.rsp := rfl

@[simp] theorem State.present_withResponse (s : State) (r : Request) (p : Response) :
    (s.withResponse p).present r = (s.present r).withResponse p := rfl

@[simp] theorem State.withResponse_withResponse (s : State) (p q : Response) :
    (s.withResponse p).withResponse q = s.withResponse q := rfl

@[simp] theorem State.withFetchWord_req (s : State) (nbits w : Nat) :
    (s.withFetchWord nbits w).req = requestOfBits nbits w := rfl

@[simp] theorem State.withFetchWord_rsp (s : State) (nbits w : Nat) :
    (s.withFetchWord nbits w).rsp = s.rsp := rfl

@[simp] theorem State.reset_req : State.reset.req = { cmd := 0, a := 0, b := 0 } := rfl

@[simp] theorem State.reset_rsp : State.reset.rsp = { status := 0b11, r0 := 2, r1 := 0 } := rfl

@[simp] theorem Answer.response_ok (r0 r1 : Word) :
    (Answer.ok r0 r1).response = { status := 0b00, r0 := r0, r1 := r1 } := rfl

@[simp] theorem Answer.response_none :
    Answer.none.response = { status := 0b01, r0 := 0, r1 := 0 } := rfl

@[simp] theorem Answer.response_domainError (c : DomainCause) :
    (Answer.domainError c).response =
      { status := 0b10, r0 := (domainCode c).setWidth 64, r1 := 0 } := rfl

@[simp] theorem Answer.response_fault (c : FaultCause) :
    (Answer.fault c).response =
      { status := 0b11, r0 := (faultCode c).setWidth 64, r1 := 0 } := rfl

end Sys2Proof.Machine
end

