-- ==== Sys2Proof/Laws/Ops.lean ====
section
/-! SUPPORT. What each shared operation can do, said once: ending a request, and the operand forms with
their checks in the order of 60_exceptions.md R179. -/

namespace Sys2Proof.Machine

/-- Ending a request is a next state, and only the response port changes. -/
theorem State.answer_eq_next_iff (s t : State) (ans : Answer) :
    s.answer ans = .next t ↔ t = s.withResponse ans.response := by
  unfold State.answer
  constructor
  · intro h; cases h; rfl
  · rintro rfl; rfl

theorem State.refuse_eq_next_iff (s t : State) (c : FaultCause) :
    s.refuse c = .next t ↔ t = s.withResponse (Answer.fault c).response :=
  s.answer_eq_next_iff t (.fault c)

/-- The range check is a bound on the number. -/
theorem fits_iff (cw : Nat) (v : Word) : fits cw v = true ↔ v.toNat < 2 ^ cw := by
  unfold fits
  rw [beq_iff_eq, ← BitVec.toNat_inj, BitVec.toNat_ushiftRight, Nat.shiftRight_eq_div_pow]
  simp [Nat.div_eq_zero_iff]

/-- A zero-extended operand passes the range check of its width. -/
theorem fits_setWidth {w : Nat} (h : w ≤ 64) (x : BitVec w) : fits w (x.setWidth 64) = true := by
  have hp : 2 ^ w ≤ 2 ^ 64 := Nat.pow_le_pow_right (by norm_num) h
  rw [fits_iff, BitVec.toNat_setWidth, Nat.mod_eq_of_lt (lt_of_lt_of_le x.isLt hp)]
  exact x.isLt

/-- Reading back a zero-extended operand gives it. -/
theorem setWidth_setWidth_self {w : Nat} (h : w ≤ 64) (x : BitVec w) :
    (x.setWidth 64).setWidth w = x := by
  have hp : 2 ^ w ≤ 2 ^ 64 := Nat.pow_le_pow_right (by norm_num) h
  apply BitVec.eq_of_toNat_eq
  rw [BitVec.toNat_setWidth, BitVec.toNat_setWidth, Nat.mod_eq_of_lt (lt_of_lt_of_le x.isLt hp),
    Nat.mod_eq_of_lt x.isLt]

theorem UFmt.width_le (f : UFmt) : f.width ≤ 64 := by cases f <;> decide

theorem UFmt.eight_le_width (f : UFmt) : 8 ≤ f.width := by cases f <;> decide

/-- `PAT`: reserved bits, then range, then the operation. -/
theorem withPattern_eq (w : Nat) (r : Request) (k : BitVec w → Answer) :
    withPattern w r k =
      if r.b ≠ 0#64 then .fault .reservedNonzero
      else if r.a.toNat < 2 ^ w then k (r.a.setWidth w) else .fault .operandRange := by
  unfold withPattern requireNoB requireFits
  simp only [ne_eq, ite_not, fits_iff]

/-- `PAT` on a clean request is the operation on its operand. -/
theorem withPattern_clean {w : Nat} (hw : w ≤ 64) (r : Request) (x : BitVec w)
    (ha : r.a = x.setWidth 64) (hb : r.b = 0#64) (k : BitVec w → Answer) : withPattern w r k = k x := by
  unfold withPattern requireNoB requireFits
  rw [if_pos hb, ha, if_pos (fits_setWidth hw x), setWidth_setWidth_self hw]

/-- `PAT` and `PAT_B` on a clean request. -/
theorem withPatterns_clean {w : Nat} (hw : w ≤ 64) (r : Request) (x y : BitVec w)
    (ha : r.a = x.setWidth 64) (hb : r.b = y.setWidth 64) (k : BitVec w → BitVec w → Answer) :
    withPatterns w r k = k x y := by
  unfold withPatterns requireFits
  rw [ha, hb, if_pos (fits_setWidth hw x), if_pos (fits_setWidth hw y), setWidth_setWidth_self hw,
    setWidth_setWidth_self hw]

/-- `I8` pattern on a clean request: the invalid pattern faults, any other is split into sign and
magnitude. -/
theorem withSigned_clean (r : Request) (x : BitVec 8) (ha : r.a = x.setWidth 64) (hb : r.b = 0#64)
    (k : Bool → BitVec 7 → Answer) :
    withSigned r k =
      if x = 0x80#8 then .fault .invalidPattern else k (signOf x) (magnitudeOf x) := by
  unfold withSigned requireNoB requireFits requireValid
  rw [if_pos hb, ha, if_pos (fits_setWidth (by norm_num) x), setWidth_setWidth_self (by norm_num)]

/-- `I8` pair on a clean request. -/
theorem withSignedPair_clean (r : Request) (x y : BitVec 8) (ha : r.a = x.setWidth 64)
    (hb : r.b = y.setWidth 64) (k : BitVec 8 → BitVec 8 → Answer) :
    withSignedPair r k =
      if x = 0x80#8 ∨ y = 0x80#8 then .fault .invalidPattern else k x y := by
  unfold withSignedPair requireFits requireValid
  rw [ha, hb, if_pos (fits_setWidth (by norm_num) x), if_pos (fits_setWidth (by norm_num) y),
    setWidth_setWidth_self (by norm_num), setWidth_setWidth_self (by norm_num)]
  by_cases hx : x = 0x80#8 <;> by_cases hy : y = 0x80#8 <;> simp [hx, hy]

/-- `UINT64` and `F64` on a request with `b` zero. -/
theorem withUint64_clean (r : Request) (hb : r.b = 0#64) (k : Nat → Answer) :
    withUint64 r k = k r.a.toNat := by
  unfold withUint64 requireNoB; rw [if_pos hb]

theorem withFloat_clean (r : Request) (hb : r.b = 0#64) (k : Word → Answer) : withFloat r k = k r.a := by
  unfold withFloat requireNoB; rw [if_pos hb]

/-- `SINT8` on a clean request. -/
theorem withSint8_clean (r : Request) (x : BitVec 8) (ha : r.a = x.setWidth 64) (hb : r.b = 0#64)
    (k : Int → Answer) : withSint8 r k = k x.toInt := by
  unfold withSint8 requireNoB requireFits
  rw [if_pos hb, ha, if_pos (fits_setWidth (by norm_num) x), setWidth_setWidth_self (by norm_num)]

end Sys2Proof.Machine
end

