-- ==== Sys2Proof/Laws/PerInstr.lean ====
section
/-! SUPPORT. Facts about every instruction, one lemma per constructor. `TableRow`: the encoder's word lies
in the instruction's row of spec/opcode_table.json, whose match and mask are written out here. -/

namespace Sys2Proof.Laws.TableRow

/-- The row's match and mask. -/
def row : Instr → Command × Command
  | .decU _ => (0x0001, 0xFF9F)
  | .decI8 => (0x0081, 0xFFFF)
  | .encIntU _ => (0x0002, 0xFF9F)
  | .encIntI8 => (0x0082, 0xFFFF)
  | .encFltU _ => (0x0003, 0xFF9F)
  | .encFltI8 => (0x0083, 0xFFFF)
  | .cmpU _ => (0x0004, 0xFF9F)
  | .cmpI8 => (0x0084, 0xFFFF)
  | .parentU _ => (0x0008, 0xFF9F)
  | .parentI8 => (0x0088, 0xFFFF)
  | .lchildU _ => (0x0009, 0xFF9F)
  | .lchildI8 => (0x0089, 0xFFFF)
  | .rchildU _ => (0x000A, 0xFF9F)
  | .rchildI8 => (0x008A, 0xFFFF)
  | .childrenU _ => (0x000B, 0xFF9F)
  | .childrenI8 => (0x008B, 0xFFFF)
  | .siblingU _ => (0x000C, 0xFF9F)
  | .siblingI8 => (0x008C, 0xFFFF)
  | .isleafU _ => (0x000D, 0xFF9F)
  | .isleafI8 => (0x008D, 0xFFFF)
  | .invU _ => (0x0010, 0xFF9F)
  | .invI8 => (0x0090, 0xFFFF)
  | .invChkU _ => (0x0011, 0xFF9F)
  | .invChkI8 => (0x0091, 0xFFFF)
  | .invUnchkU _ => (0x0012, 0xFF9F)
  | .invUnchkI8 => (0x0092, 0xFFFF)
  | .widenU8U16 => (0x0118, 0xFFFF)
  | .widenU8U32 => (0x0218, 0xFFFF)
  | .widenU8U64 => (0x0318, 0xFFFF)
  | .widenU16U32 => (0x0238, 0xFFFF)
  | .widenU16U64 => (0x0338, 0xFFFF)
  | .widenU32U64 => (0x0358, 0xFFFF)
  | .narrowU16U8 => (0x0039, 0xFFFF)
  | .narrowU32U8 => (0x0059, 0xFFFF)
  | .narrowU32U16 => (0x0159, 0xFFFF)
  | .narrowU64U8 => (0x0079, 0xFFFF)
  | .narrowU64U16 => (0x0179, 0xFFFF)
  | .narrowU64U32 => (0x0279, 0xFFFF)
  | .narrowLossyU16U8 => (0x003A, 0xFFFF)
  | .narrowLossyU32U8 => (0x005A, 0xFFFF)
  | .narrowLossyU32U16 => (0x015A, 0xFFFF)
  | .narrowLossyU64U8 => (0x007A, 0xFFFF)
  | .narrowLossyU64U16 => (0x017A, 0xFFFF)
  | .narrowLossyU64U32 => (0x027A, 0xFFFF)

/-- The encoded word has the row's fixed bits. -/
def Statement (i : Instr) : Prop := encode i &&& (row i).2 = (row i).1

theorem decU (f : UFmt) : Statement (.decU f) := by cases f <;> rfl
theorem decI8 : Statement .decI8 := rfl
theorem encIntU (f : UFmt) : Statement (.encIntU f) := by cases f <;> rfl
theorem encIntI8 : Statement .encIntI8 := rfl
theorem encFltU (f : UFmt) : Statement (.encFltU f) := by cases f <;> rfl
theorem encFltI8 : Statement .encFltI8 := rfl
theorem cmpU (f : UFmt) : Statement (.cmpU f) := by cases f <;> rfl
theorem cmpI8 : Statement .cmpI8 := rfl
theorem parentU (f : UFmt) : Statement (.parentU f) := by cases f <;> rfl
theorem parentI8 : Statement .parentI8 := rfl
theorem lchildU (f : UFmt) : Statement (.lchildU f) := by cases f <;> rfl
theorem lchildI8 : Statement .lchildI8 := rfl
theorem rchildU (f : UFmt) : Statement (.rchildU f) := by cases f <;> rfl
theorem rchildI8 : Statement .rchildI8 := rfl
theorem childrenU (f : UFmt) : Statement (.childrenU f) := by cases f <;> rfl
theorem childrenI8 : Statement .childrenI8 := rfl
theorem siblingU (f : UFmt) : Statement (.siblingU f) := by cases f <;> rfl
theorem siblingI8 : Statement .siblingI8 := rfl
theorem isleafU (f : UFmt) : Statement (.isleafU f) := by cases f <;> rfl
theorem isleafI8 : Statement .isleafI8 := rfl
theorem invU (f : UFmt) : Statement (.invU f) := by cases f <;> rfl
theorem invI8 : Statement .invI8 := rfl
theorem invChkU (f : UFmt) : Statement (.invChkU f) := by cases f <;> rfl
theorem invChkI8 : Statement .invChkI8 := rfl
theorem invUnchkU (f : UFmt) : Statement (.invUnchkU f) := by cases f <;> rfl
theorem invUnchkI8 : Statement .invUnchkI8 := rfl
theorem widenU8U16 : Statement .widenU8U16 := rfl
theorem widenU8U32 : Statement .widenU8U32 := rfl
theorem widenU8U64 : Statement .widenU8U64 := rfl
theorem widenU16U32 : Statement .widenU16U32 := rfl
theorem widenU16U64 : Statement .widenU16U64 := rfl
theorem widenU32U64 : Statement .widenU32U64 := rfl
theorem narrowU16U8 : Statement .narrowU16U8 := rfl
theorem narrowU32U8 : Statement .narrowU32U8 := rfl
theorem narrowU32U16 : Statement .narrowU32U16 := rfl
theorem narrowU64U8 : Statement .narrowU64U8 := rfl
theorem narrowU64U16 : Statement .narrowU64U16 := rfl
theorem narrowU64U32 : Statement .narrowU64U32 := rfl
theorem narrowLossyU16U8 : Statement .narrowLossyU16U8 := rfl
theorem narrowLossyU32U8 : Statement .narrowLossyU32U8 := rfl
theorem narrowLossyU32U16 : Statement .narrowLossyU32U16 := rfl
theorem narrowLossyU64U8 : Statement .narrowLossyU64U8 := rfl
theorem narrowLossyU64U16 : Statement .narrowLossyU64U16 := rfl
theorem narrowLossyU64U32 : Statement .narrowLossyU64U32 := rfl

end Sys2Proof.Laws.TableRow
end

