-- ==== Sys2Proof/Laws/Tree.lean ====
section
/-! SUPPORT. The small lemmas of the tree: the marker, the path, the bounds, and the steps of the float
search. -/

namespace Sys2Proof.Machine

/-! ### The marker -/

@[simp] theorem tzcnt_zero (w : Nat) : tzcnt (0#w) = w := by
  have h : ((List.range w).find? fun i => (0#w).getLsbD i) = none :=
    List.find?_eq_none.2 fun i _ => by simp
  rw [tzcnt, h, Option.getD_none]

/-- A marker is what `tzcnt` finds. -/
theorem tzcnt_eq_of_marker {w : Nat} {x : BitVec w} {t : Nat} (ht : x.getLsbD t = true)
    (hlow : ∀ j < t, x.getLsbD j = false) : tzcnt x = t := by
  have hw : t < w := BitVec.lt_of_getLsbD ht
  have : ((List.range w).find? fun i => x.getLsbD i) = some t := by
    rw [List.find?_range_eq_some]
    exact ⟨ht, by simpa using hw, fun j hj => by simp [hlow j hj]⟩
  simp [tzcnt, this]

/-- A nonzero pattern has a marker, and `tzcnt` is its position. -/
theorem marker_tzcnt {w : Nat} {x : BitVec w} (h : x ≠ 0#w) :
    x.getLsbD (tzcnt x) = true ∧ ∀ j < tzcnt x, x.getLsbD j = false := by
  cases hf : (List.range w).find? fun i => x.getLsbD i with
  | none =>
    refine absurd (BitVec.eq_of_getLsbD_eq fun i hi => ?_) h
    have := List.find?_eq_none.1 hf i (by simpa using hi)
    simpa using this
  | some t =>
    have ht := List.find?_range_eq_some.1 hf
    have : tzcnt x = t := by simp [tzcnt, hf]
    rw [this]
    exact ⟨ht.1, fun j hj => by simpa using ht.2.2 j hj⟩

theorem tzcnt_lt {w : Nat} {x : BitVec w} (h : x ≠ 0#w) : tzcnt x < w :=
  BitVec.lt_of_getLsbD (marker_tzcnt h).1

theorem tzcnt_le {w : Nat} (x : BitVec w) : tzcnt x ≤ w := by
  by_cases h : x = 0#w
  · simp [h]
  · exact (tzcnt_lt h).le

/-! ### The path -/

@[simp] theorem length_pathBits {w : Nat} (x : BitVec w) : (pathBits x).length = depth x := by
  simp [pathBits]

theorem depth_le {w : Nat} (x : BitVec w) : depth x ≤ w - 1 := by unfold depth; omega

theorem getElem?_pathBits {w : Nat} (x : BitVec w) {j : Nat} (h : j < depth x) :
    (pathBits x)[j]? = some (x.getLsbD (w - 1 - j)) := by
  simp [pathBits, h]

/-! ### The bounds -/

@[simp] theorem boundsAlong_nil : boundsAlong [] = Bounds.seed := rfl

@[simp] theorem boundsAlong_append (p q : List Bool) :
    boundsAlong (p ++ q) = q.foldl Bounds.descend (boundsAlong p) := by
  simp [boundsAlong, List.foldl_append]

theorem boundsAlong_concat (p : List Bool) (b : Bool) :
    boundsAlong (p ++ [b]) = (boundsAlong p).descend b := by simp

@[simp] theorem Bounds.descend_false_lower (b : Bounds) : (b.descend false).lower = b.lower := rfl
@[simp] theorem Bounds.descend_false_mid (b : Bounds) :
    (b.descend false).mid = mediant b.lower b.mid := rfl
@[simp] theorem Bounds.descend_false_upper (b : Bounds) : (b.descend false).upper = b.mid := rfl
@[simp] theorem Bounds.descend_true_lower (b : Bounds) : (b.descend true).lower = b.mid := rfl
@[simp] theorem Bounds.descend_true_mid (b : Bounds) :
    (b.descend true).mid = mediant b.mid b.upper := rfl
@[simp] theorem Bounds.descend_true_upper (b : Bounds) : (b.descend true).upper = b.upper := rfl

@[simp] theorem mediant_num (p q : Frac) : (mediant p q).num = p.num + q.num := rfl
@[simp] theorem mediant_den (p q : Frac) : (mediant p q).den = p.den + q.den := rfl

/-- Every node is the mediant of its bounds: the fact behind the numerical bounds of the decoder. -/
theorem boundsAlong_mid (p : List Bool) :
    (boundsAlong p).mid = mediant (boundsAlong p).lower (boundsAlong p).upper := by
  induction p using List.reverseRecOn with
  | nil => rfl
  | append_singleton p b ih =>
    rw [boundsAlong_concat]
    cases b <;> rfl

@[simp] theorem decodeFrac_zero (w : Nat) : decodeFrac (0#w) = ⟨0, 1⟩ := by
  simp [decodeFrac]

theorem decodeFrac_of_ne {w : Nat} {x : BitVec w} (h : x ≠ 0#w) :
    decodeFrac x = (boundsAlong (pathBits x)).mid := by simp [decodeFrac, h]

/-! ### The moves -/

@[simp] theorem parent_zero (w : Nat) : parent (0#w) = none := by simp [parent]
@[simp] theorem leftChild_zero (w : Nat) : leftChild (0#w) = none := by simp [leftChild]
@[simp] theorem rightChild_zero (w : Nat) : rightChild (0#w) = none := by simp [rightChild]
@[simp] theorem sibling_zero (w : Nat) : sibling (0#w) = none := by simp [sibling]

/-- Everything `children` can answer. -/
theorem children_eq {w : Nat} (x : BitVec w) :
    children x =
      if x = 0#w ∨ tzcnt x = 0 then none
      else some (moveMarker x (tzcnt x) (tzcnt x - 1), x ||| BitVec.twoPow w (tzcnt x - 1)) := by
  unfold children leftChild rightChild
  by_cases h : x = 0#w <;> by_cases ht : tzcnt x = 0 <;> simp [h, ht]

/-! ### The float search -/

@[simp] theorem Search.goLower_bounds (st : Search) :
    st.goLower.bounds = st.bounds.descend false := rfl
@[simp] theorem Search.goLower_path (st : Search) : st.goLower.path = st.path <<< 1 := rfl
@[simp] theorem Search.goLower_k (st : Search) : st.goLower.k = st.k + 1 := rfl
@[simp] theorem Search.goLower_upRec (st : Search) : st.goLower.upRec = some (st.path, st.k) := rfl
@[simp] theorem Search.goLower_loRec (st : Search) : st.goLower.loRec = st.loRec := rfl
@[simp] theorem Search.goUpper_bounds (st : Search) :
    st.goUpper.bounds = st.bounds.descend true := rfl
@[simp] theorem Search.goUpper_path (st : Search) : st.goUpper.path = st.path <<< 1 ||| 1 := rfl
@[simp] theorem Search.goUpper_k (st : Search) : st.goUpper.k = st.k + 1 := rfl
@[simp] theorem Search.goUpper_upRec (st : Search) : st.goUpper.upRec = st.upRec := rfl
@[simp] theorem Search.goUpper_loRec (st : Search) : st.goUpper.loRec = some (st.path, st.k) := rfl

/-- One step of the search. -/
theorem searchFrom_succ (w : Nat) (cmp : Frac → Ordering) (n : Nat) (st : Search) :
    searchFrom w cmp (n + 1) st =
      match cmp st.bounds.mid with
      | .eq => emit w st.path st.k
      | .gt => searchFrom w cmp n st.goLower
      | .lt => searchFrom w cmp n st.goUpper := rfl

theorem searchFrom_zero (w : Nat) (cmp : Frac → Ordering) (st : Search) :
    searchFrom w cmp 0 st = st.finish w cmp := rfl

/-- An invariant of every step of the search holds of what it ends with: if `P` survives both moves and
each exit from a state with `P` gives a `Q`, the search gives a `Q`. -/
theorem searchFrom_induction {w : Nat} {cmp : Frac → Ordering} (P : Search → Prop)
    (Q : BitVec w → Prop) (hlo : ∀ st, P st → P st.goLower) (hup : ∀ st, P st → P st.goUpper)
    (hhit : ∀ st, P st → Q (emit w st.path st.k)) (hend : ∀ st, P st → Q (st.finish w cmp))
    (n : Nat) (st : Search) (h : P st) : Q (searchFrom w cmp n st) := by
  induction n generalizing st with
  | zero => exact hend st h
  | succ n ih =>
    rw [searchFrom_succ]
    split
    · exact hhit st h
    · exact ih _ (hlo st h)
    · exact ih _ (hup st h)

end Sys2Proof.Machine
end

