-- ==== Sys2Proof/Tests/Slice0.lean ====
section
/-! SUPPORT. The model's own tests. Expected responses are vectors of 95_test_vectors.md, named beside each
test (V-…), or computed by hand from the named rule; command words are written out from 30_encoding.md R60,
R62 and R66. `witness_<Name>` shows operands and a state that meet all the hypotheses of the statement
`Obligations.<Name>`, clause by clause at boundary values. -/

open Sys2Proof Sys2Proof.Machine

namespace Sys2Proof.Tests

/-- The response to one request, as numbers. -/
def answered (cmd a b : Nat) : Option Response :=
  ask State.reset { cmd := BitVec.ofNat 16 cmd, a := BitVec.ofNat 64 a, b := BitVec.ofNat 64 b }

/-- A state with operands on its ports. -/
def port (a b : Word) : State := State.reset.present { cmd := 0, a := a, b := b }

/-! ### WellFormed refuses each kind of ill-formed term -/

theorem test_illFormed_opcode : Command.opAssigned 0x0000 = false := by decide
theorem test_illFormed_format : Command.formatLegal 0x00A1 = false := by decide
theorem test_illFormed_pair_equal : Command.formatLegal 0x0018 = false := by decide
theorem test_illFormed_pair_signed : Command.formatLegal 0x0498 = false := by decide
theorem test_illFormed_pair_direction : Command.formatLegal 0x0119 = false := by decide
theorem test_illFormed_rsv : Command.reservedClear 0x0801 = false := by decide
theorem test_illFormed_fmt2 : Command.reservedClear 0x0101 = false := by decide
theorem test_illFormed_b : Request.bClear ⟨0x0001, 0x80, 1⟩ = false := by decide
theorem test_illFormed_range_a : Request.inRange ⟨0x0001, 0x180, 0⟩ = false := by decide
theorem test_illFormed_range_b : Request.inRange ⟨0x0004, 0x80, 0x100⟩ = false := by decide
theorem test_illFormed_pattern_a : Request.patternsValid ⟨0x0090, 0x80, 0⟩ = false := by decide
theorem test_illFormed_pattern_b : Request.patternsValid ⟨0x0084, 0, 0x80⟩ = false := by decide
theorem test_illFormed_command : Command.wellFormed 0x00A1 = false := by decide
theorem test_illFormed_request : Request.wellFormed ⟨0x0090, 0x80, 0⟩ = false := by decide
theorem test_wellFormed_request : Request.wellFormed ⟨0x0084, 0xD4, 0xC0⟩ = true := by decide

/-! ### Decoding: words written out as rsv, fmt2, fmt, op (R60, R62, R66), every constructor -/

theorem test_decode_codec :
    decode 0b00000_000_000_00001 = .ok (.decU .u8) ∧ decode 0b00000_000_100_00001 = .ok .decI8 ∧
    decode 0b00000_000_001_00010 = .ok (.encIntU .u16) ∧
    decode 0b00000_000_100_00010 = .ok .encIntI8 ∧
    decode 0b00000_000_010_00011 = .ok (.encFltU .u32) ∧
    decode 0b00000_000_100_00011 = .ok .encFltI8 ∧
    decode 0b00000_000_011_00100 = .ok (.cmpU .u64) ∧
    decode 0b00000_000_100_00100 = .ok .cmpI8 := by decide

theorem test_decode_navigator :
    decode 0b00000_000_000_01000 = .ok (.parentU .u8) ∧
    decode 0b00000_000_100_01000 = .ok .parentI8 ∧
    decode 0b00000_000_001_01001 = .ok (.lchildU .u16) ∧
    decode 0b00000_000_100_01001 = .ok .lchildI8 ∧
    decode 0b00000_000_010_01010 = .ok (.rchildU .u32) ∧
    decode 0b00000_000_100_01010 = .ok .rchildI8 ∧
    decode 0b00000_000_011_01011 = .ok (.childrenU .u64) ∧
    decode 0b00000_000_100_01011 = .ok .childrenI8 ∧
    decode 0b00000_000_000_01100 = .ok (.siblingU .u8) ∧
    decode 0b00000_000_100_01100 = .ok .siblingI8 ∧
    decode 0b00000_000_001_01101 = .ok (.isleafU .u16) ∧
    decode 0b00000_000_100_01101 = .ok .isleafI8 := by decide

theorem test_decode_inverter :
    decode 0b00000_000_010_10000 = .ok (.invU .u32) ∧ decode 0b00000_000_100_10000 = .ok .invI8 ∧
    decode 0b00000_000_011_10001 = .ok (.invChkU .u64) ∧
    decode 0b00000_000_100_10001 = .ok .invChkI8 ∧
    decode 0b00000_000_000_10010 = .ok (.invUnchkU .u8) ∧
    decode 0b00000_000_100_10010 = .ok .invUnchkI8 := by decide

theorem test_decode_widen :
    decode 0b00000_001_000_11000 = .ok .widenU8U16 ∧
    decode 0b00000_010_000_11000 = .ok .widenU8U32 ∧
    decode 0b00000_011_000_11000 = .ok .widenU8U64 ∧
    decode 0b00000_010_001_11000 = .ok .widenU16U32 ∧
    decode 0b00000_011_001_11000 = .ok .widenU16U64 ∧
    decode 0b00000_011_010_11000 = .ok .widenU32U64 := by decide

theorem test_decode_narrow :
    decode 0b00000_000_001_11001 = .ok .narrowU16U8 ∧
    decode 0b00000_000_010_11001 = .ok .narrowU32U8 ∧
    decode 0b00000_001_010_11001 = .ok .narrowU32U16 ∧
    decode 0b00000_000_011_11001 = .ok .narrowU64U8 ∧
    decode 0b00000_001_011_11001 = .ok .narrowU64U16 ∧
    decode 0b00000_010_011_11001 = .ok .narrowU64U32 := by decide

theorem test_decode_narrowLossy :
    decode 0b00000_000_001_11010 = .ok .narrowLossyU16U8 ∧
    decode 0b00000_000_010_11010 = .ok .narrowLossyU32U8 ∧
    decode 0b00000_001_010_11010 = .ok .narrowLossyU32U16 ∧
    decode 0b00000_000_011_11010 = .ok .narrowLossyU64U8 ∧
    decode 0b00000_001_011_11010 = .ok .narrowLossyU64U16 ∧
    decode 0b00000_010_011_11010 = .ok .narrowLossyU64U32 := by decide

theorem test_decodeTableWord : decodeTableWord 16 0x0118 = some .widenU8U16 := by decide
theorem test_decodeTableWord_refused : decodeTableWord 16 0x0000 = none := by decide

/-! ### Decoder -/

theorem test_dec_u16 : answered 0x0021 0xAAA0 0x0 = some ⟨0, 0x90, 0x59⟩ := by decide -- V-D5
theorem test_dec_u64_deepest : answered 0x0061 0xAAAAAAAAAAAAAAAB 0x0 = some ⟨0, 0xF9D297A859D, 0x9A661CA20BB⟩ := by decide -- V-D15
theorem test_dec_i8_negative : answered 0x0081 0xD4 0x0 = some ⟨0, 0xF8, 0x5⟩ := by decide -- V-S8
theorem test_dec_i8_invalid : answered 0x0081 0x80 0x0 = some ⟨3, 0x6, 0x0⟩ := by decide -- V-S10

/-! ### Encoder -/

theorem test_encInt_u16 : answered 0x0022 0x9 0x0 = some ⟨0, 0xFF80, 0x0⟩ := by decide -- V-I9
theorem test_encInt_u8_tooLarge : answered 0x0002 0x9 0x0 = some ⟨2, 0x1, 0x0⟩ := by decide -- V-I6
theorem test_encInt_i8_negative : answered 0x0082 0xFD 0x0 = some ⟨0, 0xF0, 0x0⟩ := by decide -- V-S18
theorem test_encInt_i8_min : answered 0x0082 0x80 0x0 = some ⟨2, 0x1, 0x0⟩ := by decide -- V-S20
theorem test_encFlt_u8_golden : answered 0x0003 0x3FF9E353F7CED917 0x0 = some ⟨0, 0xAC, 0x0⟩ := by decide +kernel -- V-F6
theorem test_encFlt_u8_unrecorded : answered 0x0003 0x401E000000000000 0x0 = some ⟨0, 0xFF, 0x0⟩ := by decide +kernel -- V-F14
theorem test_encFlt_i8_negative : answered 0x0083 0xBFF9E353F7CED917 0x0 = some ⟨0, 0xD4, 0x0⟩ := by decide +kernel -- V-S24
theorem test_encFlt_i8_negZero : answered 0x0083 0x8000000000000000 0x0 = some ⟨0, 0x82, 0x0⟩ := by decide +kernel -- V-S26

/-! ### Comparator -/

theorem test_cmp_u8_greater : answered 0x0004 0xAC 0xAA = some ⟨0, 0x1, 0x0⟩ := by decide -- V-C1
theorem test_cmp_u8_subtree : answered 0x0004 0x40 0x7F = some ⟨0, 0x3, 0x0⟩ := by decide -- V-C6
theorem test_cmp_i8_bothNegative : answered 0x0084 0xD4 0xC0 = some ⟨0, 0x3, 0x0⟩ := by decide -- V-S33
theorem test_cmp_i8_signs : answered 0x0084 0x81 0x0 = some ⟨0, 0x3, 0x0⟩ := by decide -- V-S35

/-! ### Navigator -/

theorem test_parent_u8 : answered 0x0008 0xAC 0x0 = some ⟨0, 0xA8, 0x0⟩ := by decide -- V-T1
theorem test_parent_u8_root : answered 0x0008 0x80 0x0 = some ⟨1, 0x0, 0x0⟩ := by decide -- V-T4
theorem test_parent_i8 : answered 0x0088 0xD4 0x0 = some ⟨0, 0xD8, 0x0⟩ := by decide -- V-S52
theorem test_parent_i8_root : answered 0x0088 0xC0 0x0 = some ⟨1, 0x0, 0x0⟩ := by decide -- V-S54
theorem test_lchild_u8 : answered 0x0009 0xAC 0x0 = some ⟨0, 0xAA, 0x0⟩ := by decide -- V-T9
theorem test_lchild_u8_leaf : answered 0x0009 0x1 0x0 = some ⟨1, 0x0, 0x0⟩ := by decide -- V-T11
theorem test_lchild_i8 : answered 0x0089 0xC0 0x0 = some ⟨0, 0xA0, 0x0⟩ := by decide -- V-S56
theorem test_lchild_i8_leaf : answered 0x0089 0x1 0x0 = some ⟨1, 0x0, 0x0⟩ := by decide -- V-S57
theorem test_rchild_u8 : answered 0x000A 0xAA 0x0 = some ⟨0, 0xAB, 0x0⟩ := by decide -- V-T14
theorem test_rchild_u8_leaf : answered 0x000A 0xFF 0x0 = some ⟨1, 0x0, 0x0⟩ := by decide -- V-T16
theorem test_rchild_i8 : answered 0x008A 0x40 0x0 = some ⟨0, 0x60, 0x0⟩ := by decide -- V-S58
theorem test_rchild_i8_leaf : answered 0x008A 0xFF 0x0 = some ⟨1, 0x0, 0x0⟩ := by decide -- V-S59
theorem test_children_u8 : answered 0x000B 0xA0 0x0 = some ⟨0, 0x90, 0xB0⟩ := by decide -- V-T18
theorem test_children_u8_leaf : answered 0x000B 0x55 0x0 = some ⟨1, 0x0, 0x0⟩ := by decide -- V-T20
theorem test_children_i8 : answered 0x008B 0xC0 0x0 = some ⟨0, 0xA0, 0xE0⟩ := by decide -- V-S61
theorem test_children_i8_zero : answered 0x008B 0x0 0x0 = some ⟨1, 0x0, 0x0⟩ := by decide -- V-S62
theorem test_sibling_u8 : answered 0x000C 0xAC 0x0 = some ⟨0, 0xA4, 0x0⟩ := by decide -- V-T24
theorem test_sibling_u8_root : answered 0x000C 0x80 0x0 = some ⟨1, 0x0, 0x0⟩ := by decide -- V-T25
theorem test_sibling_i8 : answered 0x008C 0xA0 0x0 = some ⟨0, 0xE0, 0x0⟩ := by decide -- V-S64
theorem test_sibling_i8_root : answered 0x008C 0x40 0x0 = some ⟨1, 0x0, 0x0⟩ := by decide -- V-S65
theorem test_isleaf_u8 : answered 0x000D 0xFF 0x0 = some ⟨0, 0x1, 0x0⟩ := by decide -- V-T27
theorem test_isleaf_u8_zero : answered 0x000D 0x0 0x0 = some ⟨0, 0x0, 0x0⟩ := by decide -- V-T31
theorem test_isleaf_i8_not : answered 0x008D 0x7E 0x0 = some ⟨0, 0x0, 0x0⟩ := by decide -- V-S67
theorem test_isleaf_i8 : answered 0x008D 0xFF 0x0 = some ⟨0, 0x1, 0x0⟩ := by decide -- V-S66

/-! ### Inverter -/

theorem test_inv_u8 : answered 0x0010 0xAC 0x0 = some ⟨0, 0x54, 0x0⟩ := by decide -- V-N1
theorem test_inv_u8_zero : answered 0x0010 0x0 0x0 = some ⟨3, 0x1, 0x0⟩ := by decide -- V-N7
theorem test_inv_i8 : answered 0x0090 0xD4 0x0 = some ⟨0, 0xAC, 0x0⟩ := by decide -- V-S43
theorem test_inv_i8_zero : answered 0x0090 0x0 0x0 = some ⟨0, 0x7F, 0x0⟩ := by decide -- V-S44
theorem test_invChk_u8 : answered 0x0011 0xAA 0x0 = some ⟨0, 0x56, 0x0⟩ := by decide -- V-N10
theorem test_invChk_u8_zero : answered 0x0011 0x0 0x0 = some ⟨1, 0x0, 0x0⟩ := by decide -- V-N8
theorem test_invChk_i8 : answered 0x0091 0xFF 0x0 = some ⟨0, 0x81, 0x0⟩ := by decide -- V-S49
theorem test_invChk_i8_zero : answered 0x0091 0x0 0x0 = some ⟨1, 0x0, 0x0⟩ := by decide -- V-S48
theorem test_invUnchk_u8 : answered 0x0012 0xAB 0x0 = some ⟨0, 0x55, 0x0⟩ := by decide -- V-N11
theorem test_invUnchk_u8_zero : answered 0x0012 0x0 0x0 = some ⟨0, 0x0, 0x0⟩ := by decide -- V-N9
theorem test_invUnchk_i8 : answered 0x0092 0x20 0x0 = some ⟨0, 0x60, 0x0⟩ := by decide -- V-S51
theorem test_invUnchk_i8_zero : answered 0x0092 0x0 0x0 = some ⟨0, 0x0, 0x0⟩ := by decide -- V-S50

/-! ### Conversions -/

theorem test_widen_u8_u16 : answered 0x0118 0xAC 0x0 = some ⟨0, 0xAC00, 0x0⟩ := by decide -- V-X2
theorem test_widen_u8_u64 : answered 0x0318 0x1 0x0 = some ⟨0, 0x100000000000000, 0x0⟩ := by decide -- V-X5
theorem test_widen_u16_u32 : answered 0x0238 0xAAA0 0x0 = some ⟨0, 0xAAA00000, 0x0⟩ := by decide -- V-X6
theorem test_widen_u32_u64 : answered 0x0358 0xAAA10002 0x0 = some ⟨0, 0xAAA1000200000000, 0x0⟩ := by decide -- V-X7
theorem test_widen_u8_u32 : answered 0x0218 0xAC 0x0 = some ⟨0, 0xAC000000, 0x0⟩ := by decide -- R167 by hand
theorem test_widen_u16_u64 : answered 0x0338 0xAAA0 0x0 = some ⟨0, 0xAAA0000000000000, 0x0⟩ := by decide -- R167 by hand
theorem test_narrow_u16_u8 : answered 0x0039 0xAC00 0x0 = some ⟨0, 0xAC, 0x0⟩ := by decide -- V-X9
theorem test_narrow_u16_u8_loss : answered 0x0039 0xAAA0 0x0 = some ⟨2, 0x5, 0x0⟩ := by decide -- V-X12
theorem test_narrow_u64_u8 : answered 0x0079 0xFF00000000000000 0x0 = some ⟨0, 0xFF, 0x0⟩ := by decide -- V-X14
theorem test_narrow_u64_u32_loss : answered 0x0279 0xAAA1000000000002 0x0 = some ⟨2, 0x5, 0x0⟩ := by decide -- V-X15
theorem test_narrow_u32_u16 : answered 0x0159 0xAAA10000 0x0 = some ⟨0, 0xAAA1, 0x0⟩ := by decide -- V-X16
theorem test_narrow_u32_u8 : answered 0x0059 0xAC000000 0x0 = some ⟨0, 0xAC, 0x0⟩ := by decide -- R168 by hand
theorem test_narrow_u64_u16 : answered 0x0179 0xAAA1000000000000 0x0 = some ⟨0, 0xAAA1, 0x0⟩ := by decide -- R168 by hand
theorem test_narrowLossy_u16_u8 : answered 0x003A 0xAAA0 0x0 = some ⟨0, 0xAB, 0x0⟩ := by decide -- V-X17
theorem test_narrowLossy_u16_u8_lossless : answered 0x003A 0xAC00 0x0 = some ⟨0, 0xAC, 0x0⟩ := by decide -- V-X18
theorem test_narrowLossy_u64_u32 : answered 0x027A 0xAAA1000000000002 0x0 = some ⟨0, 0xAAA10001, 0x0⟩ := by decide -- V-X23
theorem test_narrowLossy_u32_u8 : answered 0x005A 0xAAA10002 0x0 = some ⟨0, 0xAB, 0x0⟩ := by decide -- V-X24
theorem test_narrowLossy_u32_u16 : answered 0x015A 0xAAA00002 0x0 = some ⟨0, 0xAAA1, 0x0⟩ := by decide -- R169 by hand
theorem test_narrowLossy_u64_u8 : answered 0x007A 0xAAA1000000000002 0x0 = some ⟨0, 0xAB, 0x0⟩ := by decide -- R169 by hand
theorem test_narrowLossy_u64_u16 : answered 0x017A 0xAAA0000000000002 0x0 = some ⟨0, 0xAAA1, 0x0⟩ := by decide -- R169 by hand

/-! ### Refusals and their order -/

theorem test_refuse_zeroRequest : answered 0x0000 0x0 0x0 = some ⟨3, 0x2, 0x0⟩ := by decide -- V-R1
theorem test_refuse_opBeforeAll : answered 0xF8A5 0x1FF 0x7 = some ⟨3, 0x2, 0x0⟩ := by decide -- V-R5
theorem test_refuse_fmtBeforeRsv : answered 0x08A1 0x180 0x1 = some ⟨3, 0x3, 0x0⟩ := by decide -- V-R13
theorem test_refuse_rsvBeforeRange : answered 0x0801 0x180 0x0 = some ⟨3, 0x4, 0x0⟩ := by decide -- V-R14
theorem test_refuse_fmt2 : answered 0x0101 0x80 0x0 = some ⟨3, 0x4, 0x0⟩ := by decide -- V-R7
theorem test_refuse_b : answered 0x0001 0x80 0x1 = some ⟨3, 0x4, 0x0⟩ := by decide -- V-R8
theorem test_refuse_cmpRange : answered 0x0004 0x80 0x100 = some ⟨3, 0x5, 0x0⟩ := by decide -- V-R10
theorem test_refuse_sint8Range : answered 0x0082 0x1FD 0x0 = some ⟨3, 0x5, 0x0⟩ := by decide -- V-R11
theorem test_accept_uint64 : answered 0x0002 0x100 0x0 = some ⟨2, 0x1, 0x0⟩ := by decide -- V-R12
theorem test_refuse_rangeBeforePattern : answered 0x0081 0x180 0x0 = some ⟨3, 0x5, 0x0⟩ := by decide -- V-R15
theorem test_refuse_bBeforeNan : answered 0x0003 0x7FF8000000000000 0x5 = some ⟨3, 0x4, 0x0⟩ := by decide +kernel -- V-R19
theorem test_refuse_equalWidths : answered 0x0018 0x80 0x0 = some ⟨3, 0x3, 0x0⟩ := by decide -- V-R18

/-! ### The host, the reset state, the other comparison arithmetic -/

/-- The reset response is the response to the reset request (R30). -/
theorem test_reset_port : ask State.reset State.reset.req = some State.reset.rsp := by decide

/-- Program P5 of 95_test_vectors.md, which ends at its fault under the "panic" reading (R200). -/
theorem test_serveUntilFault :
    (serveUntilFault State.reset [⟨0x0002, 0, 0⟩, ⟨0x0012, 0, 0⟩, ⟨0x0010, 0, 0⟩, ⟨0x0002, 9, 0⟩]).1 =
      [⟨0, 0, 0⟩, ⟨0, 0, 0⟩, ⟨3, 1, 0⟩] := by decide

/-- The same program continued after its fault (R181). -/
theorem test_serve :
    (serve State.reset [⟨0x0002, 0, 0⟩, ⟨0x0012, 0, 0⟩, ⟨0x0010, 0, 0⟩, ⟨0x0002, 9, 0⟩]).1 =
      [⟨0, 0, 0⟩, ⟨0, 0, 0⟩, ⟨3, 1, 0⟩, ⟨2, 1, 0⟩] := by decide

/-- V-F17 in both arithmetics. -/
theorem test_fcmp_modes :
    encFlt .exact 8 (magUnits 0x3FD5555555555555) = 0x1E ∧
    encFlt .binary64Rne 8 (magUnits 0x3FD5555555555555) = 0x20 := by decide +kernel

/-- The constants of 00_scope.md R9. -/
theorem test_constants :
    onePattern .i8 = 0x40 ∧ maxPattern .i8 = 0x7F ∧ onePattern (.unsigned .u64) = 0x8000000000000000 ∧
    maxPattern (.unsigned .u64) = 0xFFFFFFFFFFFFFFFF ∧ minPattern .i8 = 1 := by decide

/-! ### Witnesses -/

theorem witness_DecodeIsInverseOfEncode :
    decode 0x0023 = .ok (.encFltU .u16) ∧ encode (.encFltU .u16) = 0x0023 := by decide

theorem witness_ConversionPairsAsTabled :
    (Command.opField 0x0018 = 0x18 ∧ Command.fmtField 0x0018 = Command.fmt2Field 0x0018) ∧
    (Command.opField 0x037A = 0x1A ∧ Command.fmtField 0x037A = 3 ∧ Command.fmt2Field 0x037A = 3) ∧
    (Command.opField 0x0358 = 0x18 ∧ Command.fmtField 0x0358 = 2 ∧ Command.fmt2Field 0x0358 = 3) := by
  decide

theorem witness_StepRunsDecodedInstruction :
    decode (State.reset.present ⟨0x0061, 1, 0⟩).req.cmd = .ok (.decU .u64) ∧
    decode State.reset.req.cmd = .error .illegalOp := by decide

theorem witness_ReservedOpcodesFault :
    [0x0000, 0xF8A5, 0x0007, 0x000E, 0x000F, 0x0013, 0x0017, 0x001B, 0x001F].map Command.opField =
      [0x00, 0x05, 0x07, 0x0E, 0x0F, 0x13, 0x17, 0x1B, 0x1F] := by decide

theorem witness_RefusedRequestsFaultInOrder :
    Request.refusal ⟨0xF8A5, 0x1FF, 7⟩ = some .illegalOp ∧
    Request.refusal ⟨0x08A1, 0x180, 1⟩ = some .illegalFmt ∧
    Request.refusal ⟨0x0801, 0x180, 0⟩ = some .reservedNonzero ∧
    Request.refusal ⟨0x0081, 0x180, 0⟩ = some .operandRange ∧
    Request.refusal ⟨0x0084, 0x00, 0x80⟩ = some .invalidPattern := by decide

theorem witness_AcceptedRequestsRunTheirInstruction :
    Request.refusal ⟨0x0010, 0, 0⟩ = none ∧ Request.refusal ⟨0x0004, 0xFF, 0xFF⟩ = none ∧
    Request.refusal ⟨0x0002, 0xFFFFFFFFFFFFFFFF, 0⟩ = none := by decide

theorem witness_ExecIgnoresEarlierResponse :
    ∃ t t', exec (.parentU .u8) (port 0xAC 0) = .next t ∧
      exec (.parentU .u8) ((port 0xAC 0).absent) = .next t' := ⟨_, _, rfl, rfl⟩

theorem witness_EarlierRequestIsForgotten :
    ∃ t u v, step (State.reset.present ⟨0x0010, 0, 0⟩) = .next t ∧
      step (t.present ⟨0x0008, 0xAC, 0⟩) = .next u ∧
      step (State.reset.present ⟨0x0008, 0xAC, 0⟩) = .next v := ⟨_, _, _, rfl, rfl, rfl⟩

theorem witness_StepKeepsResponseSound :
    responseSound ((State.reset.present ⟨0x0001, 0xAC, 0⟩).ok 13 8) ∧
      ∃ t, step ((State.reset.present ⟨0x0001, 0xAC, 0⟩).ok 13 8) = .next t :=
  ⟨⟨.decU .u8, rfl, by unfold resultForm fitsForm; decide⟩, _, rfl⟩

theorem witness_NoneCasesAreComplete :
    ((port 0x80 0).presents (0x80 : BitVec (UFmt.width .u8)) ∧
      ∃ t, exec (.siblingU .u8) (port 0x80 0) = .next t) ∧
    ((port 1 0).presents (1 : BitVec (UFmt.width .u16)) ∧
      ∃ t, exec (.lchildU .u16) (port 1 0) = .next t) ∧
    ((port 0 0).presents (0 : BitVec (UFmt.width .u64)) ∧
      ∃ t, exec (.invChkU .u64) (port 0 0) = .next t) ∧
    ((port 0xC0 0).presents (0xC0 : BitVec 8) ∧ (0xC0 : BitVec 8) ≠ 0x80#8 ∧
      ∃ t, exec .parentI8 (port 0xC0 0) = .next t) ∧
    (mayBeAbsent .isleafI8 = false ∧ ∃ t, exec .isleafI8 (port 0 0) = .next t) :=
  ⟨⟨by decide, _, rfl⟩, ⟨by decide, _, rfl⟩, ⟨by decide, _, rfl⟩, ⟨by decide, by decide, _, rfl⟩,
    ⟨rfl, _, rfl⟩⟩

theorem witness_DecUnsignedAnswers :
    (port 0xFFFFFFFFFFFFFFFF 0).presents (0xFFFFFFFFFFFFFFFF : BitVec (UFmt.width .u64)) := by decide

theorem witness_DecodeSpecialPatterns : 0 < 1 ∧ 0 < 64 := by decide

theorem witness_DecodeIsTreeValue : (0xAC : BitVec 8) ≠ 0#8 := by decide

theorem witness_DecodeFitsWidth : 0 < 64 := by decide

theorem witness_DecodeInjective : decodeFrac (0xAC : BitVec 8) = decodeFrac (0xAC : BitVec 8) := rfl

theorem witness_EncIntUnsigned :
    (port 8 0).req.b = 0#64 ∧ (port 8 0).req.a.toNat ≤ UFmt.width .u8 ∧
    (port 9 0).req.b = 0#64 ∧ UFmt.width .u8 < (port 9 0).req.a.toNat := by decide

theorem witness_EncIntGuarantees :
    (8 ≤ 8 ∧ 7 < 8 ∧ 1 ≤ 7) ∧ (port 9 0).presents 9#64 := by decide

theorem witness_EncFltUnsigned :
    (let a := (port 0xFFF8000000000001 0).req.a.toNat
     a / 2 ^ 52 % 2 ^ 11 = 0x7FF ∧ a % 2 ^ 52 ≠ 0) ∧
    (let a := (port 0x8000000000000000 0).req.a.toNat
     ¬ (a / 2 ^ 52 % 2 ^ 11 = 0x7FF ∧ a % 2 ^ 52 ≠ 0) ∧ 2 ^ 63 ≤ a) ∧
    (let a := (port 0x7FF0000000000000 0).req.a.toNat
     a / 2 ^ 52 % 2 ^ 11 = 0x7FF ∧ a % 2 ^ 52 = 0 ∧ a < 2 ^ 63) ∧
    (let a := (port 0x7FEFFFFFFFFFFFFF 0).req.a.toNat
     a / 2 ^ 52 % 2 ^ 11 ≠ 0x7FF ∧ a < 2 ^ 63) := by decide

theorem witness_FcmpIsRationalOrder : fltExponent 0x7FEFFFFFFFFFFFFF ≠ 0x7FF ∧ 1 ≤ Frac.den ⟨1, 1⟩ := by
  decide

theorem witness_FcmpModesAgreeOnExactProducts :
    (3 * 2 ^ 1073) * Frac.den ⟨1, 2⟩ = 3 * 2 ^ 1074 ∧ 3 < 2 ^ 53 ∧
      (3 * 2 ^ 1073) * Frac.den ⟨1, 2⟩ < 2 ^ 2098 := by decide +kernel

/-- The operands +0.0, 0.125, 0.13, 8.0, 7.5 and 8.5: one for each clause, at `U8` (V-F11 to V-F15, V-F4). -/
theorem witness_EncFltCornerCases :
    ([0, 0x3FC0000000000000, 0x3FC0A3D70A3D70A4, 0x4020000000000000, 0x401E000000000000,
        0x4021000000000000].all fun a => !fltSign a && fltExponent a != 0x7FF) = true ∧
    floatMagnitude 0 < 1 / 8 ∧ floatMagnitude 0x3FC0000000000000 = 1 / 8 ∧
    (1 / 8 < floatMagnitude 0x3FC0A3D70A3D70A4 ∧ floatMagnitude 0x3FC0A3D70A3D70A4 < 1 / (8 - 1)) ∧
    floatMagnitude 0x4020000000000000 = (8 : ℕ) ∧
    (8 - 1 < floatMagnitude 0x401E000000000000 ∧ floatMagnitude 0x401E000000000000 < 8) ∧
    8 < floatMagnitude 0x4021000000000000 := by decide +kernel

theorem witness_EncFltNeverZero : 0 < 7 := by decide

theorem witness_EncFltExactRoundTrip :
    (0x70 : BitVec (UFmt.width .u8)) ≠ 0#_ ∧ (port 0x3FE8000000000000 0).req.b = 0#64 ∧
    fltSign (port 0x3FE8000000000000 0).req.a = false ∧
    fltExponent (port 0x3FE8000000000000 0).req.a ≠ 0x7FF ∧
    floatMagnitude (port 0x3FE8000000000000 0).req.a =
      patternValue (0x70 : BitVec (UFmt.width .u8)) := by decide +kernel

/-- The path of 5 at W = 3: every node is below 5, so L is 3/1 and the result is 2/1. -/
theorem witness_EncFltRoundsToLeafSide :
    let path := [true, true]
    let side := fun k => fcmp .exact (boundsAlong (path.take k)).mid (5 * 2 ^ 1074)
    (path.length = 3 - 1 ∧ (∀ k < 3 - 1, side k ≠ .eq ∧ (path[k]? = some true ↔ side k = .lt)) ∧
      side (3 - 1) ≠ .eq) ∧
    (let side' := fun k => fcmp .exact (boundsAlong (path.take k)).mid (3 * 2 ^ 1074)
     (∀ k < path.length, side' k ≠ .eq ∧ (path[k]? = some true ↔ side' k = .lt)) ∧
      side' path.length = .eq) := by decide +kernel

theorem witness_CmpUnsigned :
    (port 0xFE 0xFF).presentsPair (0xFE : BitVec (UFmt.width .u8)) 0xFF ∧
    (0xFE : BitVec 8).toNat < (0xFF : BitVec 8).toNat ∧
    (port 0 0).presentsPair (0 : BitVec (UFmt.width .u8)) 0 ∧
    (port 0xFF 0xFE).presentsPair (0xFF : BitVec (UFmt.width .u8)) 0xFE := by decide

theorem witness_SubtreesAreIntervals :
    IsMarker (0xAC : BitVec 8) 2 ∧ pathBits (0xAC : BitVec 8) ++ [false] <+: pathBits (0xA9 : BitVec 8) ∧
    pathBits (0xAC : BitVec 8) ++ [true] <+: pathBits (0xAF : BitVec 8) := by decide

theorem witness_InverterEntryPoints :
    (port 0xAC 0).presents (0xAC : BitVec (UFmt.width .u8)) ∧
    IsMarker (0xAC : BitVec (UFmt.width .u8)) 2 ∧ IsMarker (0x80 : BitVec (UFmt.width .u8)) 7 ∧
    IsMarker (0xFF : BitVec (UFmt.width .u8)) 0 ∧
    (port 0 0).presents (0 : BitVec (UFmt.width .u8)) := by decide

theorem witness_InverterGuarantees : (0xAC : BitVec 8) ≠ 0#8 ∧ (0x01 : BitVec 8) ≠ 0#8 := by decide

theorem witness_ParentUnsigned :
    (port 0x40 0).presents (0x40 : BitVec (UFmt.width .u8)) ∧
    IsMarker (0x40 : BitVec (UFmt.width .u8)) 6 ∧
    (port 0x80 0).presents (0x80 : BitVec (UFmt.width .u8)) ∧
    IsMarker (0x80 : BitVec (UFmt.width .u8)) 7 ∧
    (port 0 0).presents (0 : BitVec (UFmt.width .u8)) := by decide

theorem witness_LchildUnsigned :
    (port 0x02 0).presents (0x02 : BitVec (UFmt.width .u8)) ∧
    IsMarker (0x02 : BitVec (UFmt.width .u8)) 1 ∧
    (port 0x01 0).presents (0x01 : BitVec (UFmt.width .u8)) ∧
    IsMarker (0x01 : BitVec (UFmt.width .u8)) 0 ∧
    (port 0 0).presents (0 : BitVec (UFmt.width .u8)) := by decide

theorem witness_RchildUnsigned :
    (port 0xFE 0).presents (0xFE : BitVec (UFmt.width .u16)) ∧
    IsMarker (0xFE : BitVec (UFmt.width .u16)) 1 ∧
    (port 0xFF 0).presents (0xFF : BitVec (UFmt.width .u16)) ∧
    IsMarker (0xFF : BitVec (UFmt.width .u16)) 0 ∧
    (port 0 0).presents (0 : BitVec (UFmt.width .u16)) := by decide

theorem witness_ChildrenUnsigned :
    (port 0xA0 0).presents (0xA0 : BitVec (UFmt.width .u32)) ∧
    IsMarker (0xA0 : BitVec (UFmt.width .u32)) 5 ∧
    (port 0x55 0).presents (0x55 : BitVec (UFmt.width .u32)) ∧
    IsMarker (0x55 : BitVec (UFmt.width .u32)) 0 ∧
    (port 0 0).presents (0 : BitVec (UFmt.width .u32)) := by decide

theorem witness_SiblingUnsigned :
    (port 0x01 0).presents (0x01 : BitVec (UFmt.width .u64)) ∧
    IsMarker (0x01 : BitVec (UFmt.width .u64)) 0 ∧
    (port 0x8000000000000000 0).presents (0x8000000000000000 : BitVec (UFmt.width .u64)) ∧
    IsMarker (0x8000000000000000 : BitVec (UFmt.width .u64)) 63 ∧
    (port 0 0).presents (0 : BitVec (UFmt.width .u64)) := by decide

theorem witness_IsleafUnsigned :
    (port 0xFF 0).presents (0xFF : BitVec (UFmt.width .u8)) ∧
    IsMarker (0xFF : BitVec (UFmt.width .u8)) 0 := by decide

theorem witness_NavigatorGuarantees :
    2 ≤ 8 ∧ (0xAC : BitVec 8) ≠ 0#8 ∧ isLeaf (0xAC : BitVec 8) = false ∧
    isLeaf (0xAB : BitVec 8) = true ∧ parent (0xAC : BitVec 8) = some 0xA8 := by decide

theorem witness_DecSigned :
    (port 0xD4 0).presents (0xD4 : BitVec 8) ∧ (0xD4 : BitVec 8) ≠ 0x80#8 ∧
    (port 0x80 0).presents (0x80 : BitVec 8) := by decide

theorem witness_EncIntSigned :
    (port 0x80 0).presents (BitVec.ofInt 8 (-128)) ∧ (port 0xF9 0).presents (BitVec.ofInt 8 (-7)) ∧
    (port 0x07 0).presents (BitVec.ofInt 8 7) ∧ (port 0x08 0).presents (BitVec.ofInt 8 8) ∧
    256 ≤ (port 0x100 0).req.a.toNat := by decide

theorem witness_EncFltSigned :
    (port 0xFFF0000000000000 0).req.b = 0#64 ∧
    (let a := (port 0xFFF0000000000000 0).req.a.toNat
     a / 2 ^ 52 % 2 ^ 11 = 0x7FF ∧ a % 2 ^ 52 = 0) ∧
    (let a := (port 0x7FF8000000000000 0).req.a.toNat
     a / 2 ^ 52 % 2 ^ 11 = 0x7FF ∧ a % 2 ^ 52 ≠ 0) ∧
    (let a := (port 0x8000000000000000 0).req.a.toNat
     a / 2 ^ 52 % 2 ^ 11 ≠ 0x7FF ∧ 2 ^ 63 ≤ a) ∧
    floatMagnitude 0x8000000000000000 < 1 / 7 ∧
    (6 < floatMagnitude 0x401A000000000000 ∧ floatMagnitude 0x401A000000000000 < 7) ∧
    7 < floatMagnitude 0xC01C000000000001 := by decide +kernel

theorem witness_CmpSigned :
    (port 0xD4 0xC0).presentsPair (0xD4 : BitVec 8) 0xC0 ∧ (0xD4 : BitVec 8) ≠ 0x80#8 ∧
    (port 0x00 0x80).presentsPair (0x00 : BitVec 8) 0x80 := by decide

theorem witness_SignedOrderIsValueOrder :
    (port 0xFF 0x81).presentsPair (0xFF : BitVec 8) 0x81 ∧ (0xFF : BitVec 8) ≠ 0x80#8 ∧
    (0x81 : BitVec 8) ≠ 0x80#8 ∧ signedValue 0xFF < signedValue 0x81 ∧
    signedValue 0x81 < signedValue 0x00 ∧ signedValue 0x00 < signedValue 0x01 := by decide +kernel

theorem witness_InverterSigned :
    (port 0xD4 0).presents (0xD4 : BitVec 8) ∧ IsMarker (0xD4 : BitVec 8) 2 ∧
    IsMarker (0xC0 : BitVec 8) 6 ∧ IsMarker (0xFF : BitVec 8) 0 ∧
    (port 0x00 0).presents (0x00 : BitVec 8) ∧ (port 0x80 0).presents (0x80 : BitVec 8) := by decide

theorem witness_ParentSiblingIsleafSigned :
    (port 0xC0 0).presents (0xC0 : BitVec 8) ∧ IsMarker (0xC0 : BitVec 8) 6 ∧
    (port 0xA0 0).presents (0xA0 : BitVec 8) ∧ IsMarker (0xA0 : BitVec 8) 5 ∧
    (port 0x00 0).presents (0x00 : BitVec 8) ∧ (port 0x80 0).presents (0x80 : BitVec 8) := by decide

theorem witness_ChildrenSigned :
    (port 0xC0 0).presents (0xC0 : BitVec 8) ∧ IsMarker (0xC0 : BitVec 8) 6 ∧
    (port 0x02 0).presents (0x02 : BitVec 8) ∧ IsMarker (0x02 : BitVec 8) 1 ∧
    (port 0x01 0).presents (0x01 : BitVec 8) ∧ (0x01 : BitVec 8).toNat % 2 = 1 ∧
    (port 0x00 0).presents (0x00 : BitVec 8) ∧ (port 0x80 0).presents (0x80 : BitVec 8) := by decide

theorem witness_NoSignedNegativeZero :
    ∃ t, exec .invUnchkI8 (port 0x00 0) = .next t := ⟨_, rfl⟩

theorem witness_SignedRoundTrips :
    (port 0xF9 0).presents (BitVec.ofInt 8 (-7)) ∧
    (∃ t, exec .encIntI8 (port 0xF9 0) = .next t) ∧
    (0x81 : BitVec 8) ≠ 0#_ ∧ (0x81 : BitVec 8) ≠ 0x80#8 ∧ (port 0x81 0).presents (0x81 : BitVec 8) ∧
    ∃ t, exec .invI8 (port 0x81 0) = .next t :=
  ⟨by decide, ⟨_, rfl⟩, by decide, by decide, by decide, _, rfl⟩

theorem witness_WidenAnswers :
    (port 0xFF 0).presents (0xFF : BitVec 8) ∧ (port 0xFFFFFFFF 0).presents (0xFFFFFFFF : BitVec 32) := by
  decide

theorem witness_NarrowAnswers :
    ((port 0x0100 0).presents (0x0100 : BitVec 16) ∧ (0x0100 : BitVec 16).toNat % 2 ^ (16 - 8) = 0) ∧
    ((port 0x0080 0).presents (0x0080 : BitVec 16) ∧ (0x0080 : BitVec 16).toNat % 2 ^ (16 - 8) ≠ 0) := by
  decide

theorem witness_NarrowLossyAnswers :
    ((port 0x10000 0).presents (0x10000 : BitVec 32) ∧ (0x10000 : BitVec 32).toNat % 2 ^ (32 - 16) = 0) ∧
    ((port 1 0).presents (1 : BitVec 32) ∧ (1 : BitVec 32).toNat % 2 ^ (32 - 16) ≠ 0) := by decide

theorem witness_NarrowLossyIsAncestor : 0 < 8 ∧ 8 < 16 ∧ (0xAAA0 : BitVec 16) ≠ 0#16 := by decide

theorem witness_ConversionGuarantees :
    8 < 16 ∧ lowClear 8 (0xAC00 : BitVec 16) = true ∧ (0xAC : BitVec 8) ≠ 0#8 := by decide

theorem witness_NamedConstantsAsEncoded :
    (port 64 0).presents (BitVec.ofNat 64 (UFmt.width .u64)) ∧
    (port 0xFFFFFFFFFFFFFFFF 0).presents (maxPattern (.unsigned .u64)) ∧
    (port 7 0).presents 7#64 ∧ (port 0x7F 0).presents (maxPattern .i8) := by decide

end Sys2Proof.Tests
end

section
/-! The step as an equation: every instruction, and so every step, shows a response that the request port
alone fixes (10_state.md R25). -/

namespace Sys2Proof.Machine

/-- The response an instruction shows for the operands `a` and `b`: what it shows on one fixed machine, with
the all-zero command and the reset state's earlier response. `exec_eq_next` says that every other machine
with these operands shows the same, so the last two arms are never taken. -/
def instrResponse (i : Instr) (a b : Word) : Response :=
  match exec i { State.reset with req := { cmd := 0, a := a, b := b } } with
  | .next t => t.rsp
  | .fault _ => State.reset.rsp
  | .refused _ => State.reset.rsp

/-- Every instruction answers, from the operand ports alone: each arm of `exec` ends in `State.answer`, and
each operand form reads only the fields `a` and `b` of the request. -/
theorem exec_eq_next (i : Instr) (s : State) :
    exec i s = .next (s.withResponse (instrResponse i s.req.a s.req.b)) := by
  cases i <;> rfl

/-- `F` of R25: the decoded instruction's response on the operands, or the FAULT response the decoder names. -/
def requestResponse (r : Request) : Response :=
  match decode r.cmd with
  | .ok i => instrResponse i r.a r.b
  | .error c => (Answer.fault c).response

theorem requestResponse_of_decode_ok {r : Request} {i : Instr} (h : decode r.cmd = .ok i) :
    requestResponse r = instrResponse i r.a r.b := by
  simp only [requestResponse, h]

theorem requestResponse_of_decode_error {r : Request} {c : FaultCause} (h : decode r.cmd = .error c) :
    requestResponse r = (Answer.fault c).response := by
  simp only [requestResponse, h]

theorem step_of_decode_ok {s : State} {i : Instr} (h : decode s.req.cmd = .ok i) :
    step s = exec i s := by
  simp only [step, h]

theorem step_of_decode_error {s : State} {c : FaultCause} (h : decode s.req.cmd = .error c) :
    step s = s.refuse c := by
  simp only [step, h]

/-- Every step shows `requestResponse` of the request and changes nothing else. -/
theorem step_eq_next (s : State) : step s = .next (s.withResponse (requestResponse s.req)) := by
  cases h : decode s.req.cmd with
  | ok i => rw [step_of_decode_ok h, exec_eq_next, requestResponse_of_decode_ok h]
  | error c =>
    have href : s.refuse c = .next (s.withResponse (Answer.fault c).response) :=
      (s.refuse_eq_next_iff _ c).mpr rfl
    rw [step_of_decode_error h, href, requestResponse_of_decode_error h]

/-- Settles O9: the function is `requestResponse`, by the equation of the step. -/
theorem responseIsFunctionOfRequest : Obligations.ResponseIsFunctionOfRequest :=
  ⟨requestResponse, step_eq_next⟩

end Sys2Proof.Machine
end

section
/-! The operand checks of a request (60_exceptions.md R179, steps 3 to 5) as data: the cause each check
raises, the operand form of each operation and format (30_encoding.md R63, R66), and what the two sides of
R65 and R141, the operand forms of `Operands.lean` and the request's own fields, make of them. -/

namespace Sys2Proof.Machine

/-! ### A check and the cause it raises -/

/-- A check of R179: the cause `c`, unless `p` holds. -/
def raiseUnless (p : Prop) [Decidable p] (c : FaultCause) : Option FaultCause :=
  if p then none else some c

theorem raiseUnless_of {p : Prop} [Decidable p] (h : p) (c : FaultCause) : raiseUnless p c = none :=
  if_pos h

/-- A later check counts where the earlier one raises nothing. -/
theorem raiseUnless_or (p : Prop) [Decidable p] (c : FaultCause) (d : Option FaultCause) :
    (raiseUnless p c).or d = if p then d else some c := by
  unfold raiseUnless; split <;> rfl

/-- Two checks with one cause are one check. -/
theorem raiseUnless_and (p q : Prop) [Decidable p] [Decidable q] (c : FaultCause) :
    raiseUnless (p ∧ q) c = (raiseUnless p c).or (raiseUnless q c) := by
  by_cases hp : p
  · simp [raiseUnless, hp]
  · simp [raiseUnless, hp]

/-- A check that comes after another may take what the first has found for granted. -/
theorem raiseUnless_or_congr {p q q' : Prop} [Decidable p] [Decidable q] [Decidable q']
    (h : p → (q ↔ q')) (c d : FaultCause) :
    (raiseUnless p c).or (raiseUnless q d) = (raiseUnless p c).or (raiseUnless q' d) := by
  by_cases hp : p
  · simp [raiseUnless, h hp]
  · simp [raiseUnless, hp]

theorem requireNoB_eq_elim (r : Request) (k : Answer) :
    requireNoB r k = (raiseUnless (r.b = 0#64) .reservedNonzero).elim k .fault := by
  unfold requireNoB raiseUnless; split <;> rfl

theorem requireFits_eq_elim (cw : Nat) (v : Word) (k : Answer) :
    requireFits cw v k = (raiseUnless (v.toNat < 2 ^ cw) .operandRange).elim k .fault := by
  simp only [requireFits, raiseUnless, fits_iff]; split <;> rfl

theorem requireValid_eq_elim (x : BitVec 8) (k : Answer) :
    requireValid x k = (raiseUnless (x ≠ 0x80#8) .invalidPattern).elim k .fault := by
  simp only [requireValid, raiseUnless, ne_eq, ite_not]; split <;> rfl

/-- Two checks in a row are one: the first cause raised counts. -/
theorem elim_or_fault (c d : Option FaultCause) (k : Answer) :
    (c.or d).elim k .fault = c.elim (d.elim k .fault) .fault := by
  cases c <;> rfl

/-! ### The operand forms -/

/-- The operand forms of R63, one for each `with…` of `Operands.lean`. -/
inductive OperandForm where
  | pattern (w : Nat)
  | patterns (w : Nat)
  | signed
  | signedPair
  | uint64
  | sint8
  | float

/-- The first cause the operands of `r` raise in a form. -/
def OperandForm.refusal (r : Request) : OperandForm → Option FaultCause
  | .pattern w =>
    (raiseUnless (r.b = 0#64) .reservedNonzero).or (raiseUnless (r.a.toNat < 2 ^ w) .operandRange)
  | .patterns w => raiseUnless (r.a.toNat < 2 ^ w ∧ r.b.toNat < 2 ^ w) .operandRange
  | .signed =>
    (raiseUnless (r.b = 0#64) .reservedNonzero).or
      ((raiseUnless (r.a.toNat < 2 ^ 8) .operandRange).or
        (raiseUnless (r.a.setWidth 8 ≠ 0x80#8) .invalidPattern))
  | .signedPair =>
    (raiseUnless (r.a.toNat < 2 ^ 8 ∧ r.b.toNat < 2 ^ 8) .operandRange).or
      (raiseUnless (r.a.setWidth 8 ≠ 0x80#8 ∧ r.b.setWidth 8 ≠ 0x80#8) .invalidPattern)
  | .uint64 | .float => raiseUnless (r.b = 0#64) .reservedNonzero
  | .sint8 =>
    (raiseUnless (r.b = 0#64) .reservedNonzero).or (raiseUnless (r.a.toNat < 2 ^ 8) .operandRange)

/-! Each `with…` is the operation's own answer, unless the operands are refused. -/

theorem withPattern_eq_elim (w : Nat) (r : Request) (k : BitVec w → Answer) :
    withPattern w r k = ((OperandForm.pattern w).refusal r).elim (k (r.a.setWidth w)) .fault := by
  rw [withPattern, requireNoB_eq_elim, requireFits_eq_elim, OperandForm.refusal, elim_or_fault]

theorem withPatterns_eq_elim (w : Nat) (r : Request) (k : BitVec w → BitVec w → Answer) :
    withPatterns w r k =
      ((OperandForm.patterns w).refusal r).elim (k (r.a.setWidth w) (r.b.setWidth w)) .fault := by
  simp only [withPatterns, requireFits_eq_elim, OperandForm.refusal, raiseUnless_and, elim_or_fault]

theorem withSigned_eq_elim (r : Request) (k : Bool → BitVec 7 → Answer) :
    withSigned r k =
      (OperandForm.signed.refusal r).elim
        (k (signOf (r.a.setWidth 8)) (magnitudeOf (r.a.setWidth 8))) .fault := by
  simp only [withSigned, requireNoB_eq_elim, requireFits_eq_elim, requireValid_eq_elim,
    OperandForm.refusal, elim_or_fault]

theorem withSignedPair_eq_elim (r : Request) (k : BitVec 8 → BitVec 8 → Answer) :
    withSignedPair r k =
      (OperandForm.signedPair.refusal r).elim (k (r.a.setWidth 8) (r.b.setWidth 8)) .fault := by
  simp only [withSignedPair, requireFits_eq_elim, requireValid_eq_elim, OperandForm.refusal,
    raiseUnless_and, elim_or_fault]

theorem withUint64_eq_elim (r : Request) (k : Nat → Answer) :
    withUint64 r k = (OperandForm.uint64.refusal r).elim (k r.a.toNat) .fault :=
  requireNoB_eq_elim r _

theorem withFloat_eq_elim (r : Request) (k : Word → Answer) :
    withFloat r k = (OperandForm.float.refusal r).elim (k r.a) .fault :=
  requireNoB_eq_elim r _

theorem withSint8_eq_elim (r : Request) (k : Int → Answer) :
    withSint8 r k = (OperandForm.sint8.refusal r).elim (k (r.a.setWidth 8).toInt) .fault := by
  simp only [withSint8, requireNoB_eq_elim, requireFits_eq_elim, OperandForm.refusal, elim_or_fault]

/-! ### The form of each operation -/

/-- The operand form of an operation in a format (R63, R66); of a conversion, in its source format. -/
def operandForm : Operation → Format → OperandForm
  | .encInt, .unsigned _ => .uint64
  | .encInt, .i8 => .sint8
  | .encFlt, _ => .float
  | .cmp, .unsigned f => .patterns f.width
  | .cmp, .i8 => .signedPair
  | _, .unsigned f => .pattern f.width
  | _, .i8 => .signed

theorem exec_of_widenOf {fs ft : UFmt} {i : Instr} (h : widenOf fs ft = some i) (s : State) :
    exec i s = s.answer (widenAnswer fs ft s.req) := by
  unfold widenOf at h
  split at h <;> cases h <;> rfl

theorem exec_of_narrowOf {fs ft : UFmt} {i : Instr} (h : narrowOf fs ft = some i) (s : State) :
    exec i s = s.answer (narrowAnswer fs ft s.req) := by
  unfold narrowOf at h
  split at h <;> cases h <;> rfl

theorem exec_of_narrowLossyOf {fs ft : UFmt} {i : Instr} (h : narrowLossyOf fs ft = some i)
    (s : State) : exec i s = s.answer (narrowLossyAnswer fs ft s.req) := by
  unfold narrowLossyOf at h
  split at h <;> cases h <;> rfl

/-- A conversion has an instruction for two unsigned formats of its table, and for nothing else. -/
theorem convertOf_eq_some_iff (table : UFmt → UFmt → Option Instr) (f : Format) (f2 : Option Format)
    (i : Instr) : convertOf table f f2 = some i ↔
      ∃ fs ft, f = .unsigned fs ∧ f2 = some (.unsigned ft) ∧ table fs ft = some i := by
  unfold convertOf
  split <;> simp_all

/-- Every instruction makes the checks of its operand form before anything else: `k` is its own answer. -/
theorem exec_eq_elim {op : Operation} {f : Format} {f2 : Option Format} {i : Instr}
    (h : instrOf op f f2 = some i) (s : State) :
    ∃ k, exec i s = s.answer (((operandForm op f).refusal s.req).elim k .fault) := by
  cases op with
  | widen =>
    obtain ⟨fs, ft, rfl, rfl, hrow⟩ := (convertOf_eq_some_iff _ _ _ _).mp h
    exact ⟨_, (exec_of_widenOf hrow s).trans (congrArg s.answer (withPattern_eq_elim _ _ _))⟩
  | narrow =>
    obtain ⟨fs, ft, rfl, rfl, hrow⟩ := (convertOf_eq_some_iff _ _ _ _).mp h
    exact ⟨_, (exec_of_narrowOf hrow s).trans (congrArg s.answer (withPattern_eq_elim _ _ _))⟩
  | narrowLossy =>
    obtain ⟨fs, ft, rfl, rfl, hrow⟩ := (convertOf_eq_some_iff _ _ _ _).mp h
    exact ⟨_, (exec_of_narrowLossyOf hrow s).trans (congrArg s.answer (withPattern_eq_elim _ _ _))⟩
  | encInt =>
    cases f with
    | unsigned f => cases h; exact ⟨_, congrArg s.answer (withUint64_eq_elim _ _)⟩
    | i8 => cases h; exact ⟨_, congrArg s.answer (withSint8_eq_elim _ _)⟩
  | encFlt => cases f <;> cases h <;> exact ⟨_, congrArg s.answer (withFloat_eq_elim _ _)⟩
  | cmp =>
    cases f with
    | unsigned f => cases h; exact ⟨_, congrArg s.answer (withPatterns_eq_elim _ _ _)⟩
    | i8 => cases h; exact ⟨_, congrArg s.answer (withSignedPair_eq_elim _ _)⟩
  | dec | parent | lchild | rchild | children | sibling | isleaf | inv | invChk | invUnchk =>
    cases f with
    | unsigned f => cases h; exact ⟨_, congrArg s.answer (withPattern_eq_elim _ _ _)⟩
    | i8 => cases h; exact ⟨_, congrArg s.answer (withSigned_eq_elim _ _)⟩

/-! ### The same checks on the request's own fields -/

/-- Steps 3 (its operand part), 4 and 5 of R179, as `Request.refusal` makes them. -/
def operandRefusal (r : Request) : Option FaultCause :=
  (raiseUnless (r.bClear = true) .reservedNonzero).or
    ((raiseUnless (r.inRange = true) .operandRange).or
      (raiseUnless (r.patternsValid = true) .invalidPattern))

/-- A container whose word is in range is the invalid pattern exactly when the word is. -/
theorem setWidth_ne_invalid_iff {v : Word} (h : v.toNat < 2 ^ 8) :
    v.setWidth 8 ≠ 0x80#8 ↔ v ≠ 0x80#64 := by
  bv_omega

theorem signed_refusal (r : Request) :
    OperandForm.signed.refusal r =
      (raiseUnless (r.b = 0#64) .reservedNonzero).or
        ((raiseUnless (r.a.toNat < 2 ^ 8) .operandRange).or
          (raiseUnless (r.a ≠ 0x80#64) .invalidPattern)) :=
  congrArg (Option.or _) (raiseUnless_or_congr setWidth_ne_invalid_iff _ _)

theorem signedPair_refusal (r : Request) :
    OperandForm.signedPair.refusal r =
      (raiseUnless (r.a.toNat < 2 ^ 8 ∧ r.b.toNat < 2 ^ 8) .operandRange).or
        (raiseUnless (r.a ≠ 0x80#64 ∧ r.b ≠ 0x80#64) .invalidPattern) :=
  raiseUnless_or_congr (fun ⟨ha, hb⟩ =>
    and_congr (setWidth_ne_invalid_iff ha) (setWidth_ne_invalid_iff hb)) _ _

/-- The container width of a format (R62). -/
def containerOf : Format → Nat
  | .unsigned f => f.width
  | .i8 => 8

theorem containerWidth_code (f : Format) : containerWidth f.code.toNat = some (containerOf f) := by
  rcases f with f | _
  · cases f <;> rfl
  · rfl

theorem encInt_code_iff (op : Operation) : op.code.toNat = 0x02 ↔ op = .encInt := by
  cases op <;> decide

theorem encFlt_code_iff (op : Operation) : op.code.toNat = 0x03 ↔ op = .encFlt := by
  cases op <;> decide

theorem cmp_code_iff (op : Operation) : op.code.toNat = 0x04 ↔ op = .cmp := by
  cases op <;> decide

theorem i8_code_iff (f : Format) : f.code.toNat = 4 ↔ f = .i8 := by
  rcases f with f | _
  · cases f <;> decide
  · decide

section
variable {op : Operation} {f : Format} {r : Request}

/-- Operand B matters to `CMP` alone (R65). -/
theorem bClear_iff (hop : r.cmd.opField = op.code.toNat) :
    r.bClear = true ↔ r.b = 0#64 ∨ op = .cmp := by
  simp [Request.bClear, hop, cmp_code_iff]

/-- The range check reads `a` as the operand form says, and `b` for `CMP` alone (R65). -/
theorem inRange_iff (hop : r.cmd.opField = op.code.toNat) (hf : r.cmd.fmtField = f.code.toNat) :
    r.inRange = true ↔
      (op ≠ .encFlt → (op = .encInt → f = .i8) → r.a.toNat < 2 ^ containerOf f) ∧
        (op = .cmp → r.b.toNat < 2 ^ containerOf f) := by
  simp only [Request.inRange, Request.aIsNarrow, hop, hf, containerWidth_code, Bool.and_eq_true,
    Bool.or_eq_true, Bool.not_eq_true', decide_eq_true_eq, bne_iff_ne, ne_eq,
    Bool.and_eq_false_iff, bne_eq_false_iff_eq, Bool.or_eq_false_iff, beq_eq_false_iff_ne,
    encInt_code_iff, encFlt_code_iff, cmp_code_iff, i8_code_iff]
  tauto

/-- The pattern check concerns the `I8` pattern operands, which the encoders do not have (R141). -/
theorem patternsValid_iff (hop : r.cmd.opField = op.code.toNat) (hf : r.cmd.fmtField = f.code.toNat) :
    r.patternsValid = true ↔
      (f = .i8 → op ≠ .encInt → op ≠ .encFlt → r.a ≠ 0x80#64 ∧ (op = .cmp → r.b ≠ 0x80#64)) := by
  simp only [Request.patternsValid, hop, hf, Bool.and_eq_true, Bool.or_eq_true, bne_iff_ne, beq_iff_eq,
    ne_eq, encInt_code_iff, encFlt_code_iff, cmp_code_iff, i8_code_iff]
  tauto

/-- The operand forms and the request's own fields find the same first cause in the operands. -/
theorem operandRefusal_eq (hop : r.cmd.opField = op.code.toNat) (hf : r.cmd.fmtField = f.code.toNat) :
    operandRefusal r = (operandForm op f).refusal r := by
  simp only [operandRefusal, bClear_iff hop, inRange_iff hop hf, patternsValid_iff hop hf]
  cases op with
  | encInt => cases f <;> simp [operandForm, OperandForm.refusal, raiseUnless_of, containerOf]
  | encFlt => simp [operandForm, OperandForm.refusal, raiseUnless_of]
  | cmp =>
    cases f with
    | unsigned f => simp [operandForm, OperandForm.refusal, raiseUnless_of, containerOf]
    | i8 => simp [operandForm, signedPair_refusal, raiseUnless_of, containerOf]
  | dec | parent | lchild | rchild | children | sibling | isleaf | inv | invChk | invUnchk | widen
  | narrow | narrowLossy =>
    cases f with
    | unsigned f => simp [operandForm, OperandForm.refusal, raiseUnless_of, containerOf]
    | i8 => simp [operandForm, signed_refusal, containerOf]

end

end Sys2Proof.Machine
end

section
/-! The decoder against the arithmetic on the command's fields (30_encoding.md R60, R62, R65 to R68): both
find the same first cause, and where the decoder selects an operation and a format, the fields hold their
codes. -/

namespace Sys2Proof.Machine

/-! ### The fields as numbers (R60) -/

theorem toNat_cmdOp (w : Command) : (cmdOp w).toNat = w.opField := by
  simp [cmdOp, Command.opField]

theorem toNat_cmdFmt (w : Command) : (cmdFmt w).toNat = w.fmtField := by
  simp [cmdFmt, Command.fmtField, Nat.shiftRight_eq_div_pow]

theorem toNat_cmdFmt2 (w : Command) : (cmdFmt2 w).toNat = w.fmt2Field := by
  simp [cmdFmt2, Command.fmt2Field, Nat.shiftRight_eq_div_pow]

theorem toNat_cmdRsv (w : Command) : (cmdRsv w).toNat = w.rsvField := by
  have hw := w.isLt
  simp [cmdRsv, Command.rsvField, Nat.shiftRight_eq_div_pow]
  omega

/-! ### Codes (R62, R66) -/

theorem operationOf_isSome (c : BitVec 5) :
    (operationOf c).isSome = assignedOpcodes.contains c.toNat := by
  revert c; decide

theorem code_of_operationOf {c : BitVec 5} {op : Operation} (h : operationOf c = some op) :
    c.toNat = op.code.toNat := by
  unfold operationOf at h
  split at h <;> cases h <;> assumption

theorem formatOf_isSome (c : BitVec 3) : (formatOf c).isSome = decide (c.toNat < 5) := by
  revert c; decide

theorem code_of_formatOf {c : BitVec 3} {f : Format} (h : formatOf c = some f) :
    c.toNat = f.code.toNat := by
  unfold formatOf at h
  split at h <;> cases h <;> assumption

theorem UFmt.code_lt (f : UFmt) : f.code.toNat < 4 := by cases f <;> decide

theorem formatOf_eq_unsigned_iff (c : BitVec 3) (f : UFmt) :
    formatOf c = some (.unsigned f) ↔ c.toNat = f.code.toNat := by
  revert c; cases f <;> decide

/-- The codes below 4 are those of the unsigned formats. -/
theorem exists_unsigned_code {n : Nat} (h : n < 4) : ∃ f : UFmt, n = f.code.toNat := by
  interval_cases n
  exacts [⟨.u8, rfl⟩, ⟨.u16, rfl⟩, ⟨.u32, rfl⟩, ⟨.u64, rfl⟩]

/-! ### Legal formats (R68, R166) -/

theorem rowOf_isSome (unsigned : UFmt → Instr) (signed : Instr) (f : Format) :
    (rowOf unsigned signed f).isSome = true := by
  cases f <;> rfl

theorem widenOf_isSome (fs ft : UFmt) :
    (widenOf fs ft).isSome = decide (fs.code.toNat < ft.code.toNat) := by
  cases fs <;> cases ft <;> rfl

theorem narrowOf_isSome (fs ft : UFmt) :
    (narrowOf fs ft).isSome = decide (ft.code.toNat < fs.code.toNat) := by
  cases fs <;> cases ft <;> rfl

theorem narrowLossyOf_isSome (fs ft : UFmt) :
    (narrowLossyOf fs ft).isSome = decide (ft.code.toNat < fs.code.toNat) := by
  cases fs <;> cases ft <;> rfl

/-- The instruction an operation is under the format codes `c` and `c2`. -/
def selectInstr (op : Operation) (c c2 : BitVec 3) : Option Instr :=
  (formatOf c).bind (instrOf op · (formatOf c2))

theorem selectInstr_eq_some_iff {op : Operation} {c c2 : BitVec 3} {i : Instr} :
    selectInstr op c c2 = some i ↔ ∃ f, formatOf c = some f ∧ instrOf op f (formatOf c2) = some i :=
  Option.bind_eq_some_iff

/-- Outside the conversions every assigned format is legal. -/
theorem exists_row_iff (unsigned : UFmt → Instr) (signed : Instr) (c : BitVec 3) :
    (∃ i f, formatOf c = some f ∧ rowOf unsigned signed f = some i) ↔ c.toNat < 5 := by
  rw [← decide_eq_true_iff (p := c.toNat < 5), ← formatOf_isSome, Option.isSome_iff_exists]
  constructor
  · rintro ⟨i, f, hf, -⟩
    exact ⟨f, hf⟩
  · rintro ⟨f, hf⟩
    obtain ⟨i, hi⟩ := Option.isSome_iff_exists.mp (rowOf_isSome unsigned signed f)
    exact ⟨i, f, hf, hi⟩

/-- A conversion needs the codes of two unsigned formats that its table pairs. -/
theorem exists_conversion_iff {table : UFmt → UFmt → Option Instr} {p : Nat → Nat → Prop}
    [DecidableRel p] (h : ∀ fs ft, (table fs ft).isSome = decide (p fs.code.toNat ft.code.toNat))
    (c c2 : BitVec 3) :
    (∃ i f, formatOf c = some f ∧ convertOf table f (formatOf c2) = some i) ↔
      c.toNat < 4 ∧ c2.toNat < 4 ∧ p c.toNat c2.toNat := by
  constructor
  · rintro ⟨i, f, hf, hi⟩
    obtain ⟨fs, ft, rfl, hft, hrow⟩ := (convertOf_eq_some_iff _ _ _ _).mp hi
    rw [code_of_formatOf hf, code_of_formatOf hft]
    have hp : decide (p fs.code.toNat ft.code.toNat) = true := by rw [← h, hrow]; rfl
    exact ⟨UFmt.code_lt fs, UFmt.code_lt ft, of_decide_eq_true hp⟩
  · rintro ⟨hc, hc2, hp⟩
    obtain ⟨fs, hfs⟩ := exists_unsigned_code hc
    obtain ⟨ft, hft⟩ := exists_unsigned_code hc2
    rw [hfs, hft] at hp
    obtain ⟨i, hi⟩ := Option.isSome_iff_exists.mp ((h fs ft).trans (decide_eq_true hp))
    exact ⟨i, .unsigned fs, (formatOf_eq_unsigned_iff c fs).mpr hfs,
      (convertOf_eq_some_iff _ _ _ _).mpr
        ⟨fs, ft, rfl, (formatOf_eq_unsigned_iff c2 ft).mpr hft, hi⟩⟩

section
variable {w : Command} {op : Operation}

theorem isConversion_eq (hop : w.opField = op.code.toNat) : w.isConversion = op.converts := by
  rw [Command.isConversion, hop]
  cases op <;> rfl

/-- The format fields are legal exactly when they select an instruction (R68, R166). -/
theorem formatLegal_iff (hop : w.opField = op.code.toNat) :
    w.formatLegal = true ↔ ∃ i, selectInstr op (cmdFmt w) (cmdFmt2 w) = some i := by
  simp only [Command.formatLegal, isConversion_eq hop, hop, selectInstr_eq_some_iff]
  cases op with
  | widen =>
    simp only [instrOf, exists_conversion_iff widenOf_isSome, toNat_cmdFmt, toNat_cmdFmt2]
    simp [Operation.converts, Operation.code, and_assoc]
  | narrow =>
    simp only [instrOf, exists_conversion_iff (p := fun a b => b < a) narrowOf_isSome, toNat_cmdFmt,
      toNat_cmdFmt2]
    simp [Operation.converts, Operation.code, and_assoc]
  | narrowLossy =>
    simp only [instrOf, exists_conversion_iff (p := fun a b => b < a) narrowLossyOf_isSome,
      toNat_cmdFmt, toNat_cmdFmt2]
    simp [Operation.converts, Operation.code, and_assoc]
  | _ =>
    simp only [instrOf, exists_row_iff, toNat_cmdFmt]
    simp [Operation.converts]

/-- The unused bits of the command are zero (R65). -/
theorem reservedZero_eq (hop : w.opField = op.code.toNat) : reservedZero op w = w.reservedClear := by
  have hrsv : (cmdRsv w == 0) = (w.rsvField == 0) := by
    rw [← toNat_cmdRsv, Bool.eq_iff_iff, beq_iff_eq, beq_iff_eq, ← BitVec.toNat_inj]; rfl
  have hfmt2 : (cmdFmt2 w == 0) = (w.fmt2Field == 0) := by
    rw [← toNat_cmdFmt2, Bool.eq_iff_iff, beq_iff_eq, beq_iff_eq, ← BitVec.toNat_inj]; rfl
  rw [reservedZero, Command.reservedClear, hrsv, hfmt2, isConversion_eq hop]

end

theorem opAssigned_eq (w : Command) : w.opAssigned = (operationOf (cmdOp w)).isSome := by
  rw [operationOf_isSome, toNat_cmdOp, Command.opAssigned]

/-! ### The decoder's outcomes, in the order of R179 -/

theorem decode_of_no_operation {w : Command} (hop : operationOf (cmdOp w) = none) :
    decode w = .error .illegalOp := by
  simp only [decode, hop]

theorem decode_of_no_instr {w : Command} {op : Operation} (hop : operationOf (cmdOp w) = some op)
    (hsel : selectInstr op (cmdFmt w) (cmdFmt2 w) = none) : decode w = .error .illegalFmt := by
  rw [selectInstr] at hsel
  simp only [decode, hop, hsel]

theorem decode_of_instr {w : Command} {op : Operation} {i : Instr}
    (hop : operationOf (cmdOp w) = some op)
    (hsel : selectInstr op (cmdFmt w) (cmdFmt2 w) = some i) :
    decode w = if reservedZero op w then .ok i else .error .reservedNonzero := by
  rw [selectInstr] at hsel
  simp only [decode, hop, hsel]

end Sys2Proof.Machine
end

section
/-! Refused requests: the first failing check of 60_exceptions.md R179 (steps 1 to 5) is the FAULT a step
shows. -/

namespace Sys2Proof.Machine

/-! ### `Request.refusal`, check by check -/

theorem refusal_of_unassigned {r : Request} (h : r.cmd.opAssigned = false) :
    r.refusal = some .illegalOp := by
  simp [Request.refusal, h]

theorem refusal_of_illegal_format {r : Request} (hop : r.cmd.opAssigned = true)
    (h : r.cmd.formatLegal = false) : r.refusal = some .illegalFmt := by
  simp [Request.refusal, hop, h]

theorem refusal_of_reserved_bits {r : Request} (hop : r.cmd.opAssigned = true)
    (hfmt : r.cmd.formatLegal = true) (h : r.cmd.reservedClear = false) :
    r.refusal = some .reservedNonzero := by
  simp [Request.refusal, hop, hfmt, h]

/-- What is left to refuse a request with a well-formed command is its operands. -/
theorem refusal_of_wellFormed_command {r : Request} (hop : r.cmd.opAssigned = true)
    (hfmt : r.cmd.formatLegal = true) (hrsv : r.cmd.reservedClear = true) :
    r.refusal = operandRefusal r := by
  rw [operandRefusal, raiseUnless_or, raiseUnless_or, raiseUnless]
  simp only [Request.refusal, hop, hfmt, hrsv, Bool.not_true, Bool.false_eq_true, if_false,
    Bool.true_and, Bool.not_eq_true', ← Bool.not_eq_true, ite_not]

/-! ### The step on a refused request -/

theorem refuse_eq_faulted (s : State) (c : FaultCause) :
    s.refuse c = .next (s.faulted (causeNumber c)) := by
  cases c <;> rfl

/-- A request that gets past the decoder but is refused for its operands: its own instruction raises the
cause. -/
theorem exec_of_operandRefusal {s : State} {op : Operation} {i : Instr} {c : FaultCause}
    (hop : operationOf (cmdOp s.req.cmd) = some op)
    (hsel : selectInstr op (cmdFmt s.req.cmd) (cmdFmt2 s.req.cmd) = some i)
    (h : operandRefusal s.req = some c) : exec i s = s.refuse c := by
  obtain ⟨f, hf, hi⟩ := selectInstr_eq_some_iff.mp hsel
  obtain ⟨k, hexec⟩ := exec_eq_elim hi s
  have hform : (operandForm op f).refusal s.req = some c := by
    rw [← h, operandRefusal_eq ((toNat_cmdOp _).symm.trans (code_of_operationOf hop))
      ((toNat_cmdFmt _).symm.trans (code_of_formatOf hf))]
  rw [hexec, hform, Option.elim_some, State.refuse]

/-- A refused request gets the FAULT of the first check it fails: by the decoder's own branches, then by
the instruction's operand form. -/
theorem step_of_refusal {s : State} {c : FaultCause} (h : s.req.refusal = some c) :
    step s = s.refuse c := by
  have hassigned := opAssigned_eq s.req.cmd
  cases hop : operationOf (cmdOp s.req.cmd) with
  | none =>
    rw [hop] at hassigned
    cases (refusal_of_unassigned hassigned).symm.trans h
    exact step_of_decode_error (decode_of_no_operation hop)
  | some op =>
    rw [hop] at hassigned
    have hcode := (toNat_cmdOp s.req.cmd).symm.trans (code_of_operationOf hop)
    have hlegal := formatLegal_iff hcode
    cases hsel : selectInstr op (cmdFmt s.req.cmd) (cmdFmt2 s.req.cmd) with
    | none =>
      have hillegal : s.req.cmd.formatLegal = false := by simpa [hsel] using hlegal
      cases (refusal_of_illegal_format hassigned hillegal).symm.trans h
      exact step_of_decode_error (decode_of_no_instr hop hsel)
    | some i =>
      have hfmt : s.req.cmd.formatLegal = true := hlegal.mpr ⟨i, hsel⟩
      have hdecode := decode_of_instr hop hsel
      rw [reservedZero_eq hcode] at hdecode
      cases hrsv : s.req.cmd.reservedClear with
      | false =>
        cases (refusal_of_reserved_bits hassigned hfmt hrsv).symm.trans h
        exact step_of_decode_error (by simpa [hrsv] using hdecode)
      | true =>
        rw [refusal_of_wellFormed_command hassigned hfmt hrsv] at h
        rw [step_of_decode_ok (by simpa [hrsv] using hdecode), exec_of_operandRefusal hop hsel h]

/-- Settles O7: the FAULT that `step_of_refusal` gives, written with the numbers of R177. -/
theorem refusedRequestsFaultInOrder : Obligations.RefusedRequestsFaultInOrder := by
  unfold Obligations.RefusedRequestsFaultInOrder
  intro s c h
  rw [step_of_refusal h, refuse_eq_faulted]

/-- Settles O6: the reserved numbers are those the table of assigned opcodes leaves out, so the first check
of R179 refuses the request. -/
theorem reservedOpcodesFault : Obligations.ReservedOpcodesFault := by
  unfold Obligations.ReservedOpcodesFault
  intro s h
  have hunassigned : s.req.cmd.opAssigned = false := by
    simp only [Command.opAssigned, assignedOpcodes, List.contains_eq_mem, decide_eq_false_iff_not,
      List.mem_cons, List.not_mem_nil, or_false]
    omega
  exact refusedRequestsFaultInOrder s .illegalOp (refusal_of_unassigned hunassigned)

end Sys2Proof.Machine
end

section
/-! Straight paths: where all the path bits of a pattern are equal, the decoder walks down one edge of the
tree (40_decode.md R81, R82). -/

namespace Sys2Proof.Machine

/-! ### The bounds on the two edges of the tree -/

/-- Left steps only: the nodes 1/1, 1/2, 1/3, … -/
theorem boundsAlong_replicate_false (n : Nat) :
    boundsAlong (List.replicate n false) = ⟨⟨0, 1⟩, ⟨1, n + 1⟩, ⟨1, n⟩⟩ := by
  induction n with
  | zero => rfl
  | succ n ih =>
    rw [List.replicate_succ', boundsAlong_concat, ih]
    simp [Bounds.descend, mediant, Nat.add_comm 1]

/-- Right steps only: the nodes 1/1, 2/1, 3/1, … -/
theorem boundsAlong_replicate_true (n : Nat) :
    boundsAlong (List.replicate n true) = ⟨⟨n, 1⟩, ⟨n + 1, 1⟩, ⟨1, 0⟩⟩ := by
  induction n with
  | zero => rfl
  | succ n ih =>
    rw [List.replicate_succ', boundsAlong_concat, ih]
    simp [Bounds.descend, mediant]

/-! ### Patterns with a straight path -/

section
variable {w t : Nat} {x : BitVec w} {b : Bool}

theorem depth_eq_of_marker (ht : x.getLsbD t = true) (hlow : ∀ j < t, x.getLsbD j = false) :
    depth x = w - 1 - t := by
  rw [depth, tzcnt_eq_of_marker ht hlow]

theorem ne_zero_of_marker (ht : x.getLsbD t = true) : x ≠ 0#w := by
  rintro rfl
  simp at ht

/-- Equal bits above the marker make a straight path. -/
theorem pathBits_eq_replicate (ht : x.getLsbD t = true) (hlow : ∀ j < t, x.getLsbD j = false)
    (habove : ∀ j, t < j → j < w → x.getLsbD j = b) :
    pathBits x = List.replicate (w - 1 - t) b := by
  refine List.eq_replicate_iff.mpr ⟨by rw [length_pathBits, depth_eq_of_marker ht hlow], ?_⟩
  intro c hc
  simp only [pathBits, depth_eq_of_marker ht hlow, List.mem_map, List.mem_range] at hc
  obtain ⟨j, hj, rfl⟩ := hc
  exact habove _ (by omega) (by omega)

/-- The decoder on a pattern whose bits above the marker are all equal. -/
theorem decodeFrac_of_straight_path (ht : x.getLsbD t = true)
    (hlow : ∀ j < t, x.getLsbD j = false) (habove : ∀ j, t < j → j < w → x.getLsbD j = b) :
    decodeFrac x = (boundsAlong (List.replicate (w - 1 - t) b)).mid := by
  rw [decodeFrac_of_ne (ne_zero_of_marker ht), pathBits_eq_replicate ht hlow habove]

end

/-! ### The patterns of R82, and all ones -/

section
variable {w : Nat}

/-- The root's marker is the top bit: its path is empty. -/
theorem decodeFrac_root (hw : 0 < w) : decodeFrac (BitVec.twoPow w (w - 1)) = ⟨1, 1⟩ := by
  rw [decodeFrac_of_straight_path (t := w - 1) (b := false), boundsAlong_replicate_false]
  · simp
  · simp [hw]
  · intro j hj
    simp [hj.ne']
  · intro j hj hjw
    omega

/-- The pattern 1 has its marker at bit 0 under zeros: `w - 1` left steps from the root. -/
theorem decodeFrac_one (hw : 0 < w) : decodeFrac (1#w) = ⟨1, w⟩ := by
  rw [decodeFrac_of_straight_path (t := 0) (b := false), boundsAlong_replicate_false]
  · simp [Nat.sub_add_cancel hw]
  · simp [hw]
  · simp
  · intro j hj hjw
    simp [hj.ne']

/-- All ones have their marker at bit 0 under ones: `w - 1` right steps from the root. -/
theorem decodeFrac_allOnes (hw : 0 < w) : decodeFrac (BitVec.allOnes w) = ⟨w, 1⟩ := by
  rw [decodeFrac_of_straight_path (t := 0) (b := true), boundsAlong_replicate_true]
  · simp [Nat.sub_add_cancel hw]
  · simp [hw]
  · simp
  · intro j hj hjw
    simp [hjw]

end

/-- Settles O17: zero is the decoder's own case; the other three patterns have straight paths, empty for
the root. -/
theorem decodeSpecialPatterns : Obligations.DecodeSpecialPatterns := by
  unfold Obligations.DecodeSpecialPatterns
  intro w hw
  exact ⟨decodeFrac_zero w, decodeFrac_root hw, decodeFrac_one hw, decodeFrac_allOnes hw⟩

end Sys2Proof.Machine
end

section
/-! The integer encoder. `enc_int_W(n)` is `n` ones on top of `W - n` zeros (41_encode.md R91): its bits,
its number and its marker. From these come the guarantees of R92: its path is straight, so it decodes to
n/1; its numbers grow with n; and its right child sets the bit below the marker. -/

namespace Sys2Proof.Machine

/-! ### The pattern, bit by bit and as a number -/

/-- Exactly the top `n` bits are set. -/
@[simp] theorem getLsbD_encInt (w n i : Nat) :
    (encInt w n).getLsbD i = decide (w - n ≤ i ∧ i < w) := by
  unfold encInt
  split
  · simp only [BitVec.ofNat_eq_ofNat, BitVec.getLsbD_zero]
    grind
  · simp only [BitVec.getLsbD_shiftLeft, BitVec.getLsbD_allOnes]
    grind

@[simp] theorem encInt_zero (w : Nat) : encInt w 0 = 0#w := rfl

/-- As a number modulo `2^W`, the pattern is minus the lowest power of two it holds. -/
theorem encInt_eq_neg_twoPow (w n : Nat) : encInt w n = -BitVec.twoPow w (w - n) := by
  obtain rfl | hn := n.eq_zero_or_pos
  · simp [BitVec.twoPow_eq]
  · rw [encInt, if_neg hn.ne', ← BitVec.neg_one_eq_allOnes, BitVec.shiftLeft_eq_mul_twoPow,
      BitVec.neg_mul, BitVec.one_mul]

theorem toNat_encInt {w n : Nat} (h : n ≤ w) : (encInt w n).toNat = 2 ^ w - 2 ^ (w - n) := by
  rw [encInt_eq_neg_twoPow, BitVec.toNat_neg, BitVec.toNat_twoPow]
  obtain rfl | hn := n.eq_zero_or_pos
  · simp
  · have hlt : 2 ^ (w - n) < 2 ^ w := Nat.pow_lt_pow_right one_lt_two (by omega)
    have hpos : 0 < 2 ^ (w - n) := Nat.two_pow_pos _
    rw [Nat.mod_eq_of_lt hlt, Nat.mod_eq_of_lt (by omega)]

/-- The lowest set bit of `enc_int_W(n)` is bit `W - n`. -/
theorem isMarker_encInt {w n : Nat} (hn : 1 ≤ n) (h : n ≤ w) : IsMarker (encInt w n) (w - n) :=
  ⟨by simp; omega, fun j hj => by simp; omega⟩

/-! ### The guarantees of R92 -/

/-- Right steps only, from the root 1/1: `enc_int_W(n)` is the integer `n`. -/
theorem decodeFrac_encInt {w n : Nat} (h : n ≤ w) : decodeFrac (encInt w n) = ⟨n, 1⟩ := by
  obtain rfl | hn := n.eq_zero_or_pos
  · rw [encInt_zero, decodeFrac_zero]
  · obtain ⟨hmark, hlow⟩ := isMarker_encInt hn h
    have habove : ∀ j, w - n < j → j < w → (encInt w n).getLsbD j = true := by
      intro j hj hjw
      simp [hj.le, hjw]
    rw [decodeFrac_of_straight_path hmark hlow habove, boundsAlong_replicate_true]
    simp only [Frac.mk.injEq, and_true]
    omega

theorem toNat_encInt_lt {w n m : Nat} (hnm : n < m) (h : m ≤ w) :
    (encInt w n).toNat < (encInt w m).toNat := by
  have hpow : 2 ^ (w - m) < 2 ^ (w - n) := Nat.pow_lt_pow_right (by omega) (by omega)
  have hle : 2 ^ (w - n) ≤ 2 ^ w := Nat.pow_le_pow_right (by omega) (by omega)
  rw [toNat_encInt h, toNat_encInt (hnm.le.trans h)]
  omega

/-- Setting the bit below the marker adds one to the run of ones on top. -/
theorem encInt_or_twoPow {w n : Nat} (h : n < w) :
    encInt w n ||| BitVec.twoPow w (w - n - 1) = encInt w (n + 1) := by
  refine BitVec.eq_of_getLsbD_eq fun i hi => ?_
  simp only [BitVec.getLsbD_or, getLsbD_encInt, BitVec.getLsbD_twoPow]
  grind

/-- The right child of a node that is not a leaf keeps the marker as its last path bit (R128). -/
theorem rightChild_of_marker {w t : Nat} {x : BitVec w} (hx : IsMarker x t) (ht : t ≠ 0) :
    rightChild x = some (x ||| BitVec.twoPow w (t - 1)) := by
  obtain ⟨hmark, hlow⟩ := hx
  rw [rightChild, tzcnt_eq_of_marker hmark hlow, if_neg (ne_zero_of_marker hmark), if_neg ht]

theorem rightChild_encInt {w n : Nat} (hn : 1 ≤ n) (h : n < w) :
    rightChild (encInt w n) = some (encInt w (n + 1)) := by
  rw [rightChild_of_marker (isMarker_encInt hn h.le) (by omega), encInt_or_twoPow h]

/-! ### `ENC_INT.U*` on a clean request -/

theorem exec_encIntU (f : UFmt) (s : State) : exec (.encIntU f) s = execEncIntU f s := rfl

/-- Above the width of the format `ENC_INT` answers with the domain error INT_TOO_LARGE (R90). -/
theorem exec_encIntU_of_width_lt {f : UFmt} {s : State} (hb : s.req.b = 0#64)
    (h : f.width < s.req.a.toNat) : exec (.encIntU f) s = .next (s.domainError 1) := by
  rw [exec_encIntU, execEncIntU, withUint64_clean _ hb, if_pos h]
  rfl

/-- Settles O23: three guarantees hold at every width; the table is nine values of `enc_int_8`, and the
operand 9 is above its width. -/
theorem encIntGuarantees : Obligations.EncIntGuarantees := by
  unfold Obligations.EncIntGuarantees
  refine ⟨fun _ _ => decodeFrac_encInt, fun _ _ _ => toNat_encInt_lt, fun _ _ => rightChild_encInt,
    by decide, ?_⟩
  rintro s ⟨ha, hb⟩
  exact exec_encIntU_of_width_lt hb (by rw [ha]; decide)

end Sys2Proof.Machine
end

section
/-! The comparison primitive of the float encoder against the order of the rationals (41_encode.md R96):
counting in units of 2^(-1074) scales both sides of the comparison by one positive factor. -/

namespace Sys2Proof.Machine

/-- The units count the magnitude (R57) in steps of 2^(-1074), the spacing of the subnormals. -/
theorem cast_magUnits (a : Word) : (magUnits a : ℚ) = floatMagnitude a * 2 ^ 1074 := by
  unfold magUnits floatMagnitude
  split
  · rw [mul_assoc, ← zpow_natCast, ← zpow_add₀ two_ne_zero]
    simp
  · next he =>
    have hexp : (fltExponent a : ℤ) - 1075 + (1074 : ℕ) = (fltExponent a - 1 : ℕ) := by omega
    rw [mul_assoc, ← zpow_natCast, ← zpow_add₀ two_ne_zero, hexp, zpow_natCast, Nat.cast_mul,
      Nat.cast_pow, Nat.cast_ofNat]

/-- Exact `fcmp` is one comparison of rationals, of `mn` with `v * md` (R96). -/
theorem fcmp_exact_eq_compare (p : Frac) (a : Word) :
    fcmp .exact p (magUnits a) = compare (p.num : ℚ) (floatMagnitude a * p.den) := by
  have hunit : (0 : ℚ) < 2 ^ 1074 := pow_pos two_pos _
  have hprod : ((magUnits a * p.den : ℕ) : ℚ) = floatMagnitude a * p.den * 2 ^ 1074 := by
    rw [Nat.cast_mul, cast_magUnits, mul_right_comm]
  calc fcmp .exact p (magUnits a)
      = cmp (p.num * 2 ^ 1074) (magUnits a * p.den) := (cmp_eq_compare _ _).symm
    _ = cmp ((p.num * 2 ^ 1074 : ℕ) : ℚ) ((magUnits a * p.den : ℕ) : ℚ) :=
        (Nat.strictMono_cast.cmp_map_eq _ _).symm
    _ = cmp ((p.num : ℚ) * 2 ^ 1074) (floatMagnitude a * p.den * 2 ^ 1074) := by
        rw [hprod, Nat.cast_mul, Nat.cast_pow, Nat.cast_ofNat]
    _ = cmp (p.num : ℚ) (floatMagnitude a * p.den) := cmp_mul_pos_right hunit _ _
    _ = compare (p.num : ℚ) (floatMagnitude a * p.den) := cmp_eq_compare _ _

/-- Settles O25: the three answers of a comparison of rationals are the three orders. The equation of
`fcmp` needs neither hypothesis: the model's units and magnitude agree at every exponent, and the
scaling does not look at the denominator. -/
theorem fcmpIsRationalOrder : Obligations.FcmpIsRationalOrder := by
  unfold Obligations.FcmpIsRationalOrder
  refine ⟨rfl, fun p a _ _ => ?_⟩
  rw [fcmp_exact_eq_compare]
  exact ⟨compare_gt_iff_gt, compare_eq_iff_eq, compare_lt_iff_lt⟩

end Sys2Proof.Machine
end

section
/-! The order of patterns is the order of the decoded fractions (42_compare.md R112). The decoder's nodes
stay between the bounds they descend from, so a subtree lies on its own side of its node. Two patterns part
at the highest bit where they differ, and that bit puts them on the two sides of one node. -/

namespace Sys2Proof.Machine

/-! ### The order of fractions -/

theorem Frac.below_iff (p q : Frac) : p.below q = true ↔ p.num * q.den < q.num * p.den := by
  simp [Frac.below]

/-- The middle denominator is positive because `q` is below something. -/
theorem Frac.below_trans {p q r : Frac} (hpq : p.below q = true) (hqr : q.below r = true) :
    p.below r = true := by
  rw [Frac.below_iff] at *
  have hden : 0 < p.den := Nat.pos_of_mul_pos_left (Nat.zero_lt_of_lt hpq)
  refine lt_of_mul_lt_mul_right (a := q.den) ?_ (Nat.zero_le _)
  calc p.num * r.den * q.den = p.num * q.den * r.den := mul_right_comm _ _ _
    _ ≤ q.num * p.den * r.den := Nat.mul_le_mul_right _ hpq.le
    _ = q.num * r.den * p.den := mul_right_comm _ _ _
    _ < r.num * q.den * p.den := Nat.mul_lt_mul_of_pos_right hqr hden
    _ = r.num * p.den * q.den := mul_right_comm _ _ _

theorem below_mediant {p q : Frac} (h : p.below q = true) : p.below (mediant p q) = true := by
  simp only [Frac.below_iff, mediant_num, mediant_den, mul_add, add_mul] at *
  omega

theorem mediant_below {p q : Frac} (h : p.below q = true) : (mediant p q).below q = true := by
  simp only [Frac.below_iff, mediant_num, mediant_den, mul_add, add_mul] at *
  omega

/-! ### Bounds in order -/

/-- The three bounds are strictly increasing. -/
def Bounds.Ordered (b : Bounds) : Prop := b.lower.below b.mid = true ∧ b.mid.below b.upper = true

theorem Bounds.ordered_seed : Bounds.seed.Ordered := ⟨by decide, by decide⟩

theorem Bounds.Ordered.descend {b : Bounds} (h : b.Ordered) (bit : Bool) : (b.descend bit).Ordered := by
  obtain ⟨hlower, hupper⟩ := h
  cases bit with
  | false => exact ⟨below_mediant hlower, mediant_below hlower⟩
  | true => exact ⟨below_mediant hupper, mediant_below hupper⟩

theorem Bounds.Ordered.foldl {b : Bounds} (h : b.Ordered) (p : List Bool) :
    (p.foldl Bounds.descend b).Ordered := by
  induction p generalizing b with
  | nil => exact h
  | cons bit p ih => exact ih (h.descend bit)

/-- Every node of a subtree lies strictly between the bounds of the subtree. -/
theorem Bounds.Ordered.foldl_mid_between {b : Bounds} (h : b.Ordered) (p : List Bool) :
    b.lower.below (p.foldl Bounds.descend b).mid = true ∧
      (p.foldl Bounds.descend b).mid.below b.upper = true := by
  induction p generalizing b with
  | nil => exact h
  | cons bit p ih =>
    obtain ⟨hlower, hupper⟩ := ih (h.descend bit)
    cases bit with
    | false => exact ⟨hlower, Frac.below_trans hupper h.2⟩
    | true => exact ⟨Frac.below_trans h.1 hlower, hupper⟩

theorem ordered_boundsAlong (p : List Bool) : (boundsAlong p).Ordered := Bounds.ordered_seed.foldl p

/-- Every node of the tree is above the lower seed 0/1. -/
theorem seed_lower_below (p : List Bool) : Frac.below ⟨0, 1⟩ (boundsAlong p).mid = true :=
  (Bounds.ordered_seed.foldl_mid_between p).1

/-- A left subtree is below its node. -/
theorem boundsAlong_mid_below_of_left {p q : List Bool} (h : p ++ [false] <+: q) :
    (boundsAlong q).mid.below (boundsAlong p).mid = true := by
  obtain ⟨r, rfl⟩ := h
  rw [boundsAlong_append, boundsAlong_concat]
  exact (((ordered_boundsAlong p).descend false).foldl_mid_between r).2

/-- A right subtree is above its node. -/
theorem boundsAlong_mid_below_of_right {p q : List Bool} (h : p ++ [true] <+: q) :
    (boundsAlong p).mid.below (boundsAlong q).mid = true := by
  obtain ⟨r, rfl⟩ := h
  rw [boundsAlong_append, boundsAlong_concat]
  exact (((ordered_boundsAlong p).descend true).foldl_mid_between r).1

/-! ### The bits above a position -/

section
variable {w i t : Nat} {x y : BitVec w}

/-- The bits of a pattern from the top down to the one above `i`; the path when `i` is the marker. -/
def bitsAbove (x : BitVec w) (i : Nat) : List Bool :=
  (List.range (w - 1 - i)).map fun j => x.getLsbD (w - 1 - j)

theorem bitsAbove_tzcnt (x : BitVec w) : bitsAbove x (tzcnt x) = pathBits x := rfl

theorem bitsAbove_congr (h : ∀ j, i < j → x.getLsbD j = y.getLsbD j) :
    bitsAbove x i = bitsAbove y i := by
  refine List.map_congr_left fun j hj => h _ ?_
  have := List.mem_range.mp hj
  omega

/-- A bit above the marker is a path bit: the one after the bits above it. -/
theorem bitsAbove_concat_prefix (ht : tzcnt x < i) (hi : i < w) :
    bitsAbove x i ++ [x.getLsbD i] <+: pathBits x := by
  have hbit : bitsAbove x i ++ [x.getLsbD i] =
      (List.range (w - 1 - i + 1)).map fun j => x.getLsbD (w - 1 - j) := by
    rw [List.range_succ, List.map_append, bitsAbove, List.map_singleton,
      show w - 1 - (w - 1 - i) = i by omega]
  rw [hbit]
  refine List.IsPrefix.map _ (List.prefix_iff_eq_take.mpr ?_)
  rw [List.length_range, List.take_range, depth, min_eq_left (by omega)]

/-! ### Two patterns part at a bit -/

/-- `i` is the highest bit where the patterns differ, and there `y` has the one. -/
def PartAt (x y : BitVec w) (i : Nat) : Prop :=
  x.getLsbD i = false ∧ y.getLsbD i = true ∧ ∀ j, i < j → x.getLsbD j = y.getLsbD j

theorem exists_partAt_of_toNat_lt (h : x.toNat < y.toNat) : ∃ i, PartAt x y i := by
  have hxor : x.toNat ^^^ y.toNat ≠ 0 := fun h0 => h.ne (Nat.xor_eq_zero_iff.mp h0)
  obtain ⟨i, hi, habove⟩ := Nat.exists_most_significant_bit hxor
  simp only [Nat.testBit_xor, bne_iff_ne, ne_eq, bne_eq_false_iff_eq] at hi habove
  cases hx : x.toNat.testBit i with
  | false =>
    have hy : y.toNat.testBit i = true := by simpa [hx] using hi
    exact ⟨i, hx, hy, habove⟩
  | true =>
    have hy : y.toNat.testBit i = false := by simpa [hx] using hi
    exact absurd (Nat.lt_of_testBit i hy hx fun j hj => (habove j hj).symm) h.asymm

theorem tzcnt_le_of_getLsbD (h : x.getLsbD i = true) : tzcnt x ≤ i := by
  by_contra hlt
  have hx : x ≠ 0#w := ne_zero_of_marker h
  simp [(marker_tzcnt hx).2 i (by omega)] at h

/-- The two subtrees, or the subtree and the node, that R112 finds at the bit where two patterns part. -/
theorem decodeFrac_below_of_partAt (h : PartAt x y i) :
    (decodeFrac x).below (decodeFrac y) = true := by
  obtain ⟨hxi, hyi, habove⟩ := h
  rw [decodeFrac_of_ne (ne_zero_of_marker hyi)]
  by_cases hx : x = 0#w
  · rw [hx, decodeFrac_zero]
    exact seed_lower_below _
  rw [decodeFrac_of_ne hx]
  obtain ⟨hmark, -⟩ := marker_tzcnt hx
  have hyt : tzcnt y ≤ i := tzcnt_le_of_getLsbD hyi
  have hne : tzcnt x ≠ i := fun heq => by rw [heq, hxi] at hmark; cases hmark
  rcases hne.lt_or_gt with hlt | hgt
  · -- `x` goes left at the node above bit `i`; `y` is that node or goes right there.
    have hleft := bitsAbove_concat_prefix hlt (BitVec.lt_of_getLsbD hyi)
    rw [hxi, bitsAbove_congr habove] at hleft
    have hxn := boundsAlong_mid_below_of_left hleft
    rcases hyt.eq_or_lt with heq | hylt
    · rwa [← heq, bitsAbove_tzcnt] at hxn
    · have hright := bitsAbove_concat_prefix hylt (BitVec.lt_of_getLsbD hyi)
      rw [hyi] at hright
      exact Frac.below_trans hxn (boundsAlong_mid_below_of_right hright)
  · -- `y` goes right at the node `x`.
    have hright := bitsAbove_concat_prefix (hyt.trans_lt hgt) (tzcnt_lt hx)
    rw [← habove _ hgt, hmark, ← bitsAbove_congr fun j hj => habove j (hgt.trans hj),
      bitsAbove_tzcnt] at hright
    exact boundsAlong_mid_below_of_right hright

theorem decodeFrac_below_of_toNat_lt (h : x.toNat < y.toNat) :
    (decodeFrac x).below (decodeFrac y) = true := by
  obtain ⟨i, hi⟩ := exists_partAt_of_toNat_lt h
  exact decodeFrac_below_of_partAt hi

end

/-- Settles O32: the decoder is strictly monotone, and the order of patterns is total. -/
theorem patternOrderIsValueOrder : Obligations.PatternOrderIsValueOrder := by
  unfold Obligations.PatternOrderIsValueOrder
  intro w x y
  rcases lt_trichotomy x.toNat y.toNat with hlt | heq | hgt
  · have hval := (Frac.below_iff _ _).mp (decodeFrac_below_of_toNat_lt hlt)
    exact ⟨iff_of_true hlt hval, iff_of_false (fun h => hlt.ne (congrArg _ h)) hval.ne⟩
  · obtain rfl := BitVec.eq_of_toNat_eq heq
    simp
  · have hval := (Frac.below_iff _ _).mp (decodeFrac_below_of_toNat_lt hgt)
    exact ⟨iff_of_false hgt.asymm hval.asymm, iff_of_false (fun h => hgt.ne' (congrArg _ h)) hval.ne'⟩

end Sys2Proof.Machine
end

section
/-! `CMP` on the unsigned formats (42_compare.md R110, R111): the code of the comparison of the two patterns
presented. -/

namespace Sys2Proof.Machine

theorem exec_cmpU_of_presentsPair {f : UFmt} {x y : BitVec f.width} {s : State}
    (h : s.presentsPair x y) :
    exec (.cmpU f) s = .next (s.ok ((orderCode (compare x.toNat y.toNat)).setWidth 64) 0) := by
  obtain ⟨ha, hb⟩ := h
  calc exec (.cmpU f) s
      = s.answer (withPatterns f.width s.req fun x y => okOrder (ucmp x y)) := rfl
    _ = s.answer (okOrder (ucmp x y)) := by rw [withPatterns_clean (UFmt.width_le f) s.req x y ha hb]
    _ = .next (s.ok ((orderCode (compare x.toNat y.toNat)).setWidth 64) 0) := rfl

/-- Settles O31: the three results of the comparison, each with its code. -/
theorem cmpUnsigned : Obligations.CmpUnsigned := by
  unfold Obligations.CmpUnsigned
  intro f x y s h
  rw [exec_cmpU_of_presentsPair h]
  refine ⟨fun hlt => ?_, fun heq => ?_, fun hgt => ?_⟩
  · rw [compare_lt_iff_lt.mpr hlt]; rfl
  · rw [compare_eq_iff_eq.mpr heq]; rfl
  · rw [compare_gt_iff_gt.mpr hgt]; rfl

end Sys2Proof.Machine
end

section
/-! Where the marker of a pattern stands, and the moves that shift it (44_navigate.md R126 to R128): the
equations of the moves by the position of the marker, and the bits of a moved marker. -/

namespace Sys2Proof.Machine

section
variable {w t : Nat} {x : BitVec w}

/-! ### The marker (30_encoding.md R51) -/

theorem isMarker_tzcnt (h : x ≠ 0#w) : IsMarker x (tzcnt x) := marker_tzcnt h

theorem tzcnt_of_isMarker (h : IsMarker x t) : tzcnt x = t := tzcnt_eq_of_marker h.1 h.2

/-- The root is the one pattern with its marker at the top. -/
theorem eq_root_iff (h : x ≠ 0#w) : x = BitVec.twoPow w (w - 1) ↔ tzcnt x = w - 1 := by
  have hw : 0 < w := (tzcnt_lt h).pos
  constructor
  · rintro rfl
    exact tzcnt_of_isMarker ⟨by simp [hw], fun j hj => by simp [hj.ne']⟩
  · intro htop
    obtain ⟨hmark, hlow⟩ := marker_tzcnt h
    rw [htop] at hmark hlow
    refine BitVec.eq_of_getLsbD_eq fun i hi => ?_
    rw [BitVec.getLsbD_twoPow]
    rcases (Nat.le_sub_one_of_lt hi).lt_or_eq with hlt | rfl
    · simp only [hlow i hlt, hlt.ne', decide_false, Bool.and_false]
    · simp only [hmark, hi, decide_true, Bool.and_true]

/-! ### The moves -/

theorem leftChild_of_marker (h : IsMarker x t) (ht : t ≠ 0) :
    leftChild x = some (moveMarker x t (t - 1)) := by
  rw [leftChild, tzcnt_of_isMarker h, if_neg (ne_zero_of_marker h.1), if_neg ht]

theorem parent_of_marker (h : IsMarker x t) (ht : t ≠ w - 1) :
    parent x = some (moveMarker x t (t + 1)) := by
  rw [parent, tzcnt_of_isMarker h, if_neg (ne_zero_of_marker h.1), if_neg ht]

theorem leftChild_of_leaf (h : IsMarker x 0) : leftChild x = none := by
  rw [leftChild, tzcnt_of_isMarker h, if_pos rfl, ite_self]

theorem rightChild_of_leaf (h : IsMarker x 0) : rightChild x = none := by
  rw [rightChild, tzcnt_of_isMarker h, if_pos rfl, ite_self]

theorem parent_of_root (h : IsMarker x (w - 1)) : parent x = none := by
  rw [parent, tzcnt_of_isMarker h, if_pos rfl, ite_self]

theorem getLsbD_moveMarker (x : BitVec w) (t u i : Nat) :
    (moveMarker x t u).getLsbD i = decide (i < w ∧ (i = u ∨ i ≠ t ∧ x.getLsbD i = true)) := by
  simp only [moveMarker, BitVec.getLsbD_or, BitVec.getLsbD_and, BitVec.getLsbD_not,
    BitVec.getLsbD_twoPow]
  grind

/-- The marker moves to the bit below and leaves a 0. -/
theorem isMarker_moveMarker_pred (h : IsMarker x t) :
    IsMarker (moveMarker x t (t - 1)) (t - 1) := by
  have hlt := BitVec.lt_of_getLsbD h.1
  refine ⟨?_, fun j hj => ?_⟩
  · rw [getLsbD_moveMarker]; exact decide_eq_true ⟨by omega, .inl rfl⟩
  · rw [getLsbD_moveMarker, h.2 j (by omega)]; grind

/-- The marker moves to the bit above and overwrites the last decision. -/
theorem isMarker_moveMarker_succ (h : IsMarker x t) (ht : t + 1 < w) :
    IsMarker (moveMarker x t (t + 1)) (t + 1) := by
  refine ⟨?_, fun j hj => ?_⟩
  · rw [getLsbD_moveMarker]; exact decide_eq_true ⟨ht, .inl rfl⟩
  · rw [getLsbD_moveMarker]
    rcases (Nat.le_of_lt_succ hj).lt_or_eq with hlt | rfl
    · rw [h.2 j hlt]; grind
    · simp

end

end Sys2Proof.Machine
end

section
/-! The Inverter (43_invert.md). Inversion flips the bits above the marker and so keeps the marker (R117):
it mirrors the tree about the root, and everything R120 promises is that symmetry. -/

namespace Sys2Proof.Machine

/-! ### The pattern, bit by bit -/

section
variable {w t : Nat} {x : BitVec w}

/-- Exactly the bits above the marker are flipped (R117). -/
@[simp] theorem getLsbD_invert (x : BitVec w) (i : Nat) :
    (invert x).getLsbD i = (x.getLsbD i ^^ decide (tzcnt x < i ∧ i < w)) := by
  rw [invert, BitVec.getLsbD_xor, BitVec.getLsbD_shiftLeft, BitVec.getLsbD_allOnes]
  grind

/-- The marker is not above itself, and neither is anything below it. -/
theorem isMarker_invert (h : IsMarker x t) : IsMarker (invert x) t := by
  have htz := tzcnt_of_isMarker h
  obtain ⟨hmark, hlow⟩ := h
  refine ⟨by simp [htz, hmark], fun j hj => ?_⟩
  simp [htz, hlow j hj, hj.le]

@[simp] theorem invert_zero (w : Nat) : invert (0#w) = 0#w :=
  BitVec.eq_of_getLsbD_eq fun i hi => by simp [hi.le]

@[simp] theorem tzcnt_invert (x : BitVec w) : tzcnt (invert x) = tzcnt x := by
  by_cases hx : x = 0#w
  · rw [hx, invert_zero]
  · exact tzcnt_of_isMarker (isMarker_invert (isMarker_tzcnt hx))

theorem invert_ne_zero (h : x ≠ 0#w) : invert x ≠ 0#w :=
  ne_zero_of_marker (isMarker_invert (isMarker_tzcnt h)).1

@[simp] theorem depth_invert (x : BitVec w) : depth (invert x) = depth x := by
  rw [depth, tzcnt_invert, depth]

/-- The mask depends on the marker alone, so the second inversion flips the same bits back. -/
@[simp] theorem invert_invert (x : BitVec w) : invert (invert x) = x :=
  BitVec.eq_of_getLsbD_eq fun i _ => by simp

/-- Bit 0 is above no marker. -/
@[simp] theorem isLeaf_invert (x : BitVec w) : isLeaf (invert x) = isLeaf x := by
  simp [isLeaf]

/-- Below the root the top bit is a path bit, which inversion flips; at the root there is none. -/
theorem invert_eq_self_iff (h : x ≠ 0#w) : invert x = x ↔ tzcnt x = w - 1 := by
  have hlt := tzcnt_lt h
  constructor
  · intro hfix
    by_contra htop
    have hbit := getLsbD_invert x (w - 1)
    rw [hfix, decide_eq_true (by omega), Bool.xor_true] at hbit
    exact (Bool.eq_not_self _).mp hbit
  · intro htop
    refine BitVec.eq_of_getLsbD_eq fun i hi => ?_
    rw [getLsbD_invert, decide_eq_false (by omega), Bool.xor_false]

/-! ### The mirrored tree -/

/-- Every decision of the path turns to the other side. -/
theorem pathBits_invert (x : BitVec w) : pathBits (invert x) = (pathBits x).map (!·) := by
  rw [pathBits, pathBits, List.map_map, depth_invert]
  refine List.map_congr_left fun j hj => ?_
  have hj : j < w - 1 - tzcnt x := List.mem_range.mp hj
  have habove : tzcnt x < w - 1 - j ∧ w - 1 - j < w := by omega
  rw [Function.comp_apply, getLsbD_invert, decide_eq_true habove, Bool.xor_true]

/-- The reciprocal of a fraction. -/
def Frac.swap (p : Frac) : Frac := ⟨p.den, p.num⟩

@[simp] theorem Frac.swap_num (p : Frac) : p.swap.num = p.den := rfl
@[simp] theorem Frac.swap_den (p : Frac) : p.swap.den = p.num := rfl

theorem mediant_swap (p q : Frac) : mediant p.swap q.swap = (mediant p q).swap := rfl

theorem mediant_comm (p q : Frac) : mediant p q = mediant q p := by
  simp [mediant, Nat.add_comm]

/-- The reciprocal bounds: reciprocals reverse the order, so lower and upper change places. -/
def Bounds.mirror (b : Bounds) : Bounds := ⟨b.upper.swap, b.mid.swap, b.lower.swap⟩

@[simp] theorem Bounds.mirror_mid (b : Bounds) : b.mirror.mid = b.mid.swap := rfl

/-- A step to one side of the tree is a step to the other side of the mirrored tree. -/
theorem Bounds.mirror_descend (b : Bounds) (bit : Bool) :
    (b.descend bit).mirror = b.mirror.descend (!bit) := by
  cases bit <;> simp [mirror, descend, ← mediant_swap, mediant_comm b.mid.swap]

/-- The seeds are their own mirror image, and each step keeps the symmetry. -/
theorem boundsAlong_map_not (p : List Bool) :
    boundsAlong (p.map (!·)) = (boundsAlong p).mirror := by
  induction p using List.reverseRecOn with
  | nil => rfl
  | append_singleton p bit ih =>
    rw [List.map_append, List.map_singleton, boundsAlong_concat, ih, boundsAlong_concat,
      Bounds.mirror_descend]

/-- Inversion gives the reciprocal (R120 item 2). -/
theorem decodeFrac_invert (h : x ≠ 0#w) : decodeFrac (invert x) = (decodeFrac x).swap := by
  rw [decodeFrac_of_ne (invert_ne_zero h), pathBits_invert, boundsAlong_map_not, Bounds.mirror_mid,
    decodeFrac_of_ne h]

/-- Reciprocals reverse the order of fractions, which is the order of patterns (R112). -/
theorem invert_lt_invert_iff {y : BitVec w} (hx : x ≠ 0#w) (hy : y ≠ 0#w) :
    (invert y).toNat < (invert x).toNat ↔ x.toNat < y.toNat := by
  rw [(patternOrderIsValueOrder w x y).1, (patternOrderIsValueOrder w (invert y) (invert x)).1,
    decodeFrac_invert hx, decodeFrac_invert hy]
  simp only [Frac.swap_num, Frac.swap_den, Nat.mul_comm]

/-! ### Inversion and the moves (R120 item 5) -/

/-- Inversion turns the decision 0 below `x` into the decision 1 below its mirror image. -/
theorem invert_moveMarker_pred (h : IsMarker x t) :
    invert (moveMarker x t (t - 1)) = invert x ||| BitVec.twoPow w (t - 1) := by
  refine BitVec.eq_of_getLsbD_eq fun i hi => ?_
  rw [BitVec.getLsbD_or, BitVec.getLsbD_twoPow, getLsbD_invert, getLsbD_invert,
    tzcnt_of_isMarker h, tzcnt_of_isMarker (isMarker_moveMarker_pred h), getLsbD_moveMarker]
  grind

/-- Only the inversion of `x` itself flips bit `t + 1`, and there the parent's marker overwrites it. -/
theorem invert_moveMarker_succ (h : IsMarker x t) (ht : t + 1 < w) :
    invert (moveMarker x t (t + 1)) = moveMarker (invert x) t (t + 1) := by
  refine BitVec.eq_of_getLsbD_eq fun i hi => ?_
  rw [getLsbD_moveMarker, getLsbD_invert, getLsbD_invert,
    tzcnt_of_isMarker h, tzcnt_of_isMarker (isMarker_moveMarker_succ h ht), getLsbD_moveMarker]
  grind

theorem map_invert_leftChild (h : x ≠ 0#w) :
    (leftChild x).map invert = rightChild (invert x) := by
  have hx := isMarker_tzcnt h
  have hinv := isMarker_invert hx
  by_cases ht : tzcnt x = 0
  · rw [ht] at hx hinv
    rw [leftChild_of_leaf hx, rightChild_of_leaf hinv, Option.map_none]
  · rw [leftChild_of_marker hx ht, rightChild_of_marker hinv ht, Option.map_some,
      invert_moveMarker_pred hx]

theorem map_invert_parent (h : x ≠ 0#w) : (parent x).map invert = parent (invert x) := by
  have hx := isMarker_tzcnt h
  have hinv := isMarker_invert hx
  by_cases ht : tzcnt x = w - 1
  · rw [ht] at hx hinv
    rw [parent_of_root hx, parent_of_root hinv, Option.map_none]
  · have hlt := tzcnt_lt h
    rw [parent_of_marker hx ht, parent_of_marker hinv ht, Option.map_some,
      invert_moveMarker_succ hx (by omega)]

end

/-- Settles O35: the mirror symmetry of the tree, item by item. -/
theorem inverterGuarantees : Obligations.InverterGuarantees := by
  unfold Obligations.InverterGuarantees
  intro w x hx
  exact ⟨invert_invert x, decodeFrac_invert hx,
    ⟨depth_invert x, isLeaf_invert x, (invert_eq_self_iff hx).trans (eq_root_iff hx).symm⟩,
    fun _ hy => (invert_lt_invert_iff hx hy).symm, map_invert_leftChild hx, map_invert_parent hx⟩

end Sys2Proof.Machine
end

section
/-! `INV`, `INV_CHK` and `INV_UNCHK` on the unsigned formats (43_invert.md R115): one function, three
answers on zero. -/

namespace Sys2Proof.Machine

/-- A request that presents a pattern passes the checks of the form `PAT`. -/
theorem answer_withPattern_of_presents {f : UFmt} {x : BitVec f.width} {s : State}
    (h : s.presents x) (k : BitVec f.width → Answer) :
    s.answer (withPattern f.width s.req k) = s.answer (k x) := by
  rw [withPattern_clean (UFmt.width_le f) s.req x h.1 h.2]

section
variable {f : UFmt} {x : BitVec f.width} {s : State}

theorem exec_invU (h : s.presents x) :
    exec (.invU f) s =
      .next (if x = 0#_ then s.faulted 1 else s.ok ((invert x).setWidth 64) 0) := by
  refine (answer_withPattern_of_presents h _).trans ?_
  split <;> rfl

theorem exec_invChkU (h : s.presents x) :
    exec (.invChkU f) s =
      .next (if x = 0#_ then s.absent else s.ok ((invert x).setWidth 64) 0) := by
  refine (answer_withPattern_of_presents h _).trans ?_
  split <;> rfl

theorem exec_invUnchkU (h : s.presents x) :
    exec (.invUnchkU f) s = .next (s.ok ((invert x).setWidth 64) 0) :=
  answer_withPattern_of_presents h _

end

/-- Settles O34: the common pattern is the inverted one. -/
theorem inverterEntryPoints : Obligations.InverterEntryPoints := by
  unfold Obligations.InverterEntryPoints
  intro f x s h
  rw [exec_invU h, exec_invChkU h, exec_invUnchkU h]
  refine ⟨?_, fun t ht => ?_⟩
  · rintro rfl
    simp
  · have hne := ne_zero_of_marker ht.1
    refine ⟨invert x, by rw [if_neg hne], by rw [if_neg hne], rfl, fun i hi => ?_⟩
    rw [getLsbD_invert, tzcnt_of_isMarker ht]
    by_cases hti : t < i
    · rw [if_pos hti, decide_eq_true ⟨hti, hi⟩, Bool.xor_true]
    · rw [if_neg hti, decide_eq_false (fun hand => hti hand.1), Bool.xor_false]

end Sys2Proof.Machine
end

section
/-! The tree the moves walk (44_navigate.md R126 to R130). A child is one decision below its node, and
`childAt` takes the decision as an argument: it is undone by `parent`, and the decision it took stands above
the child's marker. -/

namespace Sys2Proof.Machine

section
variable {w t i : Nat} {x p : BitVec w} {bit : Bool}

/-- A node is a leaf or has its marker above another bit. -/
theorem isMarker_zero_or_succ (h : x ≠ 0#w) : IsMarker x 0 ∨ ∃ t, IsMarker x (t + 1) := by
  have hmark := isMarker_tzcnt h
  cases ht : tzcnt x with
  | zero => exact .inl (ht ▸ hmark)
  | succ t => exact .inr ⟨t, ht ▸ hmark⟩

/-! ### The pattern of a move, bit by bit -/

theorem isMarker_or_twoPow (h : IsMarker x (t + 1)) : IsMarker (x ||| BitVec.twoPow w t) t := by
  have hlt := BitVec.lt_of_getLsbD h.1
  refine ⟨?_, fun j hj => ?_⟩
  · simp [t.lt_succ_self.trans hlt]
  · simp [h.2 j (hj.trans t.lt_succ_self), hj.ne']

/-- Up from the left child: its marker moves back and clears the bit it leaves. -/
theorem moveMarker_moveMarker_pred (h : IsMarker x (t + 1)) :
    moveMarker (moveMarker x (t + 1) t) t (t + 1) = x := by
  have hbelow := h.2 t t.lt_succ_self
  refine BitVec.eq_of_getLsbD_eq fun i hi => ?_
  rw [getLsbD_moveMarker, getLsbD_moveMarker]
  grind

/-- Up from the right child: the marker of the node is still set. -/
theorem moveMarker_or_twoPow (h : IsMarker x (t + 1)) :
    moveMarker (x ||| BitVec.twoPow w t) t (t + 1) = x := by
  have hbelow := h.2 t t.lt_succ_self
  refine BitVec.eq_of_getLsbD_eq fun i hi => ?_
  rw [getLsbD_moveMarker, BitVec.getLsbD_or, BitVec.getLsbD_twoPow]
  grind

/-- Down again to a left child: the decision 0 takes the place of the parent's marker. -/
theorem moveMarker_moveMarker_succ (h : IsMarker x t) (hbit : x.getLsbD (t + 1) = false) :
    moveMarker (moveMarker x t (t + 1)) (t + 1) t = x := by
  refine BitVec.eq_of_getLsbD_eq fun i hi => ?_
  rw [getLsbD_moveMarker, getLsbD_moveMarker]
  grind

/-- Down again to a right child: the decision 1 is the parent's marker. -/
theorem moveMarker_succ_or_twoPow (h : IsMarker x t) (hbit : x.getLsbD (t + 1) = true) :
    moveMarker x t (t + 1) ||| BitVec.twoPow w t = x := by
  refine BitVec.eq_of_getLsbD_eq fun i hi => ?_
  rw [BitVec.getLsbD_or, BitVec.getLsbD_twoPow, getLsbD_moveMarker]
  grind

/-! ### What a move answers -/

theorem parent_eq_some_iff :
    parent x = some p ↔ ∃ t, IsMarker x t ∧ t + 1 < w ∧ p = moveMarker x t (t + 1) := by
  constructor
  · intro h
    have hx : x ≠ 0#w := by rintro rfl; simp at h
    have hmark := isMarker_tzcnt hx
    have htop : tzcnt x ≠ w - 1 := by
      intro htop
      rw [htop] at hmark
      rw [parent_of_root hmark] at h
      cases h
    rw [parent_of_marker hmark htop] at h
    have hlt := tzcnt_lt hx
    exact ⟨tzcnt x, hmark, by omega, (Option.some.inj h).symm⟩
  · rintro ⟨t, hmark, ht, rfl⟩
    exact parent_of_marker hmark (by omega)

/-- The child of a node by the decision 0 or 1, left or right (30_encoding.md R51). -/
def childAt (x : BitVec w) (bit : Bool) : Option (BitVec w) :=
  if bit then rightChild x else leftChild x

theorem childAt_false (x : BitVec w) : childAt x false = leftChild x := rfl
theorem childAt_true (x : BitVec w) : childAt x true = rightChild x := rfl

theorem childAt_of_marker (h : IsMarker x (t + 1)) (bit : Bool) :
    childAt x bit = some (if bit then x ||| BitVec.twoPow w t else moveMarker x (t + 1) t) := by
  cases bit with
  | false => exact leftChild_of_marker h t.succ_ne_zero
  | true => exact rightChild_of_marker h t.succ_ne_zero

/-- Only a node above the leaves has a child. -/
theorem exists_marker_of_childAt (h : childAt p bit = some x) : ∃ t, IsMarker p (t + 1) := by
  have hp : p ≠ 0#w := by rintro rfl; cases bit <;> simp [childAt] at h
  rcases isMarker_zero_or_succ hp with hleaf | habove
  · cases bit <;> simp [childAt, leftChild_of_leaf hleaf, rightChild_of_leaf hleaf] at h
  · exact habove

/-- The marker of a child is one below its node's, its parent is the node, and the decision that leads to it
stands above its marker. -/
theorem childAt_spec (h : IsMarker p (t + 1)) (hx : childAt p bit = some x) :
    IsMarker x t ∧ parent x = some p ∧ x.getLsbD (t + 1) = bit := by
  have hlt := BitVec.lt_of_getLsbD h.1
  rw [childAt_of_marker h, Option.some.injEq] at hx
  subst hx
  cases bit with
  | false =>
    rw [if_neg Bool.false_ne_true]
    have hmark : IsMarker (moveMarker p (t + 1) t) t := isMarker_moveMarker_pred h
    refine ⟨hmark, parent_eq_some_iff.mpr ⟨t, hmark, hlt, (moveMarker_moveMarker_pred h).symm⟩, ?_⟩
    simp [getLsbD_moveMarker]
  | true =>
    rw [if_pos rfl]
    have hmark : IsMarker (p ||| BitVec.twoPow w t) t := isMarker_or_twoPow h
    refine ⟨hmark, parent_eq_some_iff.mpr ⟨t, hmark, hlt, (moveMarker_or_twoPow h).symm⟩, ?_⟩
    simp [h.1]

/-- Tree consistency (R132 item 1): a node is the child of its parent by the decision above its marker, and
the child of no other node. -/
theorem childAt_eq_some_iff :
    childAt p bit = some x ↔ parent x = some p ∧ x.getLsbD (tzcnt x + 1) = bit := by
  constructor
  · intro h
    obtain ⟨t, hp⟩ := exists_marker_of_childAt h
    obtain ⟨hx, hparent, hbit⟩ := childAt_spec hp h
    rw [tzcnt_of_isMarker hx]
    exact ⟨hparent, hbit⟩
  · rintro ⟨hparent, hbit⟩
    obtain ⟨t, hx, ht, rfl⟩ := parent_eq_some_iff.mp hparent
    rw [tzcnt_of_isMarker hx] at hbit
    rw [childAt_of_marker (isMarker_moveMarker_succ hx ht)]
    cases bit with
    | false => exact congrArg some (moveMarker_moveMarker_succ hx hbit)
    | true => exact congrArg some (moveMarker_succ_or_twoPow hx hbit)

theorem children_eq_some_iff {l r : BitVec w} :
    children x = some (l, r) ↔ leftChild x = some l ∧ rightChild x = some r := by
  unfold children
  cases leftChild x <;> cases rightChild x <;> simp

theorem children_zero (w : Nat) : children (0#w) = none := by
  rw [children_eq, if_pos (.inl rfl)]

theorem children_of_leaf (h : IsMarker x 0) : children x = none := by
  rw [children_eq, if_pos (.inr (tzcnt_of_isMarker h))]

/-! ### The sibling (R130) -/

theorem sibling_of_marker (h : IsMarker x t) (ht : t ≠ w - 1) :
    sibling x = some (x ^^^ BitVec.twoPow w (t + 1)) := by
  rw [sibling, tzcnt_of_isMarker h, if_neg (ne_zero_of_marker h.1), if_neg ht]

theorem sibling_of_root (h : IsMarker x (w - 1)) : sibling x = none := by
  rw [sibling, tzcnt_of_isMarker h, if_pos rfl, ite_self]

/-- The flipped bit is above the marker. -/
theorem isMarker_xor_twoPow_succ (h : IsMarker x t) : IsMarker (x ^^^ BitVec.twoPow w (t + 1)) t := by
  refine ⟨?_, fun j hj => ?_⟩
  · simp [h.1]
  · simp [h.2 j hj]
    omega

/-- The parent's marker overwrites the flipped bit. -/
theorem parent_xor_twoPow_succ (h : IsMarker x t) (ht : t ≠ w - 1) :
    parent (x ^^^ BitVec.twoPow w (t + 1)) = parent x := by
  rw [parent_of_marker h ht, parent_of_marker (isMarker_xor_twoPow_succ h) ht, Option.some.injEq]
  refine BitVec.eq_of_getLsbD_eq fun i hi => ?_
  rw [getLsbD_moveMarker, getLsbD_moveMarker, BitVec.getLsbD_xor, BitVec.getLsbD_twoPow]
  grind

theorem sibling_xor_twoPow_succ (h : IsMarker x t) (ht : t ≠ w - 1) :
    sibling (x ^^^ BitVec.twoPow w (t + 1)) = some x := by
  rw [sibling_of_marker (isMarker_xor_twoPow_succ h) ht, BitVec.xor_assoc, BitVec.xor_self,
    BitVec.xor_zero]

/-- The sibling is the child of the same parent by the other decision (R132 item 1). -/
theorem exists_sibling_of_childAt (h : childAt p bit = some x) :
    ∃ y, sibling x = some y ∧ childAt p (!bit) = some y := by
  obtain ⟨hparent, hbit⟩ := childAt_eq_some_iff.mp h
  obtain ⟨t, hx, ht, -⟩ := parent_eq_some_iff.mp hparent
  have htop : t ≠ w - 1 := by omega
  rw [tzcnt_of_isMarker hx] at hbit
  refine ⟨_, sibling_of_marker hx htop, childAt_eq_some_iff.mpr ⟨?_, ?_⟩⟩
  · rw [parent_xor_twoPow_succ hx htop, hparent]
  · rw [tzcnt_of_isMarker (isMarker_xor_twoPow_succ hx), BitVec.getLsbD_xor, hbit]
    simp [ht]

/-! ### The leaf boundary (R131) -/

theorem isLeaf_iff : isLeaf x = true ↔ IsMarker x 0 := by
  simp [isLeaf, IsMarker]

theorem isLeaf_iff_odd (x : BitVec w) : isLeaf x = true ↔ x.toNat % 2 = 1 := by
  rw [isLeaf, BitVec.getLsbD, Nat.testBit_zero, decide_eq_true_iff]

/-! ### The moves as arithmetic (R126 to R128) -/

theorem toNat_or_twoPow (hi : i < w) (h : x.getLsbD i = false) :
    (x ||| BitVec.twoPow w i).toNat = x.toNat + 2 ^ i := by
  have hdisj : x &&& BitVec.twoPow w i = 0#w := by rw [BitVec.and_twoPow, h]; rfl
  rw [← BitVec.add_eq_or_of_and_eq_zero _ _ hdisj, BitVec.toNat_add_of_and_eq_zero hdisj,
    BitVec.toNat_twoPow_of_lt hi]

theorem toNat_right (h : IsMarker x (t + 1)) :
    (x ||| BitVec.twoPow w t).toNat = x.toNat + 2 ^ t :=
  toNat_or_twoPow (t.lt_succ_self.trans (BitVec.lt_of_getLsbD h.1)) (h.2 t t.lt_succ_self)

/-- The left child is the right child without the bit that was the marker. -/
theorem toNat_left_add (h : IsMarker x (t + 1)) :
    (moveMarker x (t + 1) t).toNat + 2 ^ t = x.toNat := by
  have hright : moveMarker x (t + 1) t ||| BitVec.twoPow w (t + 1) = x ||| BitVec.twoPow w t := by
    refine BitVec.eq_of_getLsbD_eq fun i hi => ?_
    rw [BitVec.getLsbD_or, BitVec.getLsbD_or, getLsbD_moveMarker, BitVec.getLsbD_twoPow,
      BitVec.getLsbD_twoPow]
    grind
  have hsum : (moveMarker x (t + 1) t).toNat + 2 ^ (t + 1) = x.toNat + 2 ^ t := by
    rw [← toNat_or_twoPow (BitVec.lt_of_getLsbD h.1) (by simp [getLsbD_moveMarker]), hright,
      toNat_right h]
  rw [pow_succ] at hsum
  omega

/-- The parent of a right child is below it, the parent of a left child above it. -/
theorem toNat_moveMarker_succ (h : IsMarker x t) (ht : t + 1 < w) :
    (moveMarker x t (t + 1)).toNat =
      if x.getLsbD (t + 1) then x.toNat - 2 ^ t else x.toNat + 2 ^ t := by
  have hparent := isMarker_moveMarker_succ h ht
  cases hbit : x.getLsbD (t + 1) with
  | true =>
    have hright := toNat_right hparent
    rw [moveMarker_succ_or_twoPow h hbit] at hright
    rw [if_pos rfl, hright, Nat.add_sub_cancel]
  | false =>
    have hleft := toNat_left_add hparent
    rw [moveMarker_moveMarker_succ h hbit] at hleft
    exact hleft.symm

end

end Sys2Proof.Machine
end

section
/-! The Navigator's operations on the unsigned formats (44_navigate.md R126 to R131): each answers its move
on the pattern presented. -/

namespace Sys2Proof.Machine

/-! ### The answer to a move (30_encoding.md R64, 60_exceptions.md R178) -/

@[simp] theorem answer_okPattern?_none {w : Nat} (s : State) :
    s.answer (okPattern? (none : Option (BitVec w))) = .next s.absent := rfl

@[simp] theorem answer_okPattern?_some {w : Nat} (s : State) (r : BitVec w) :
    s.answer (okPattern? (some r)) = .next (s.ok (r.setWidth 64) 0) := rfl

@[simp] theorem answer_okPair?_none {w : Nat} (s : State) :
    s.answer (okPair? (none : Option (BitVec w × BitVec w))) = .next s.absent := rfl

@[simp] theorem answer_okPair?_some {w : Nat} (s : State) (l r : BitVec w) :
    s.answer (okPair? (some (l, r))) = .next (s.ok (l.setWidth 64) (r.setWidth 64)) := rfl

theorem answer_okBool (s : State) (b : Bool) :
    s.answer (okBool b) = .next (s.ok (if b then 1 else 0) 0) := by
  cases b <;> rfl

section
variable {f : UFmt} {x : BitVec f.width} {s : State}

theorem exec_parentU (h : s.presents x) :
    exec (.parentU f) s = s.answer (okPattern? (parent x)) := answer_withPattern_of_presents h _

theorem exec_lchildU (h : s.presents x) :
    exec (.lchildU f) s = s.answer (okPattern? (leftChild x)) := answer_withPattern_of_presents h _

theorem exec_rchildU (h : s.presents x) :
    exec (.rchildU f) s = s.answer (okPattern? (rightChild x)) := answer_withPattern_of_presents h _

theorem exec_childrenU (h : s.presents x) :
    exec (.childrenU f) s = s.answer (okPair? (children x)) := answer_withPattern_of_presents h _

theorem exec_siblingU (h : s.presents x) :
    exec (.siblingU f) s = s.answer (okPattern? (sibling x)) := answer_withPattern_of_presents h _

theorem exec_isleafU (h : s.presents x) :
    exec (.isleafU f) s = .next (s.ok (if isLeaf x then 1 else 0) 0) :=
  (answer_withPattern_of_presents h _).trans (answer_okBool s (isLeaf x))

end

/-! ### The six operations -/

/-- Settles O36: the parent of a node below the root, as a pattern and as a number. -/
theorem parentUnsigned : Obligations.ParentUnsigned := by
  unfold Obligations.ParentUnsigned
  intro f x s h
  rw [exec_parentU h]
  refine ⟨by cases f <;> rfl, ?_, fun t ht => ⟨?_, fun hlt => ?_⟩⟩
  · rintro rfl
    rw [parent_zero, answer_okPattern?_none]
  · rintro rfl
    rw [parent_of_root ht, answer_okPattern?_none]
  · have hw : t + 1 < f.width := by omega
    exact ⟨moveMarker x t (t + 1), by rw [parent_of_marker ht hlt.ne, answer_okPattern?_some], rfl,
      isMarker_moveMarker_succ ht hw, toNat_moveMarker_succ ht hw⟩

/-- Settles O37: a node above the leaves has its marker at some `t + 1`, and its left child at `t`. -/
theorem lchildUnsigned : Obligations.LchildUnsigned := by
  unfold Obligations.LchildUnsigned
  intro f x s h
  rw [exec_lchildU h]
  refine ⟨by cases f <;> rfl, ?_, fun t ht => ⟨?_, fun hpos => ?_⟩⟩
  · rintro rfl
    rw [leftChild_zero, answer_okPattern?_none]
  · rintro rfl
    rw [leftChild_of_leaf ht, answer_okPattern?_none]
  · obtain ⟨t, rfl⟩ := Nat.exists_eq_add_one.mpr hpos
    exact ⟨moveMarker x (t + 1) t,
      by rw [leftChild_of_marker ht hpos.ne', answer_okPattern?_some, Nat.add_sub_cancel], rfl,
      isMarker_moveMarker_pred ht, Nat.eq_sub_of_add_eq (toNat_left_add ht)⟩

/-- Settles O38: a node above the leaves has its marker at some `t + 1`, and its right child at `t`. -/
theorem rchildUnsigned : Obligations.RchildUnsigned := by
  unfold Obligations.RchildUnsigned
  intro f x s h
  rw [exec_rchildU h]
  refine ⟨by cases f <;> rfl, ?_, fun t ht => ⟨?_, fun hpos => ?_⟩⟩
  · rintro rfl
    rw [rightChild_zero, answer_okPattern?_none]
  · rintro rfl
    rw [rightChild_of_leaf ht, answer_okPattern?_none]
  · obtain ⟨t, rfl⟩ := Nat.exists_eq_add_one.mpr hpos
    exact ⟨x ||| BitVec.twoPow f.width t,
      by rw [rightChild_of_marker ht hpos.ne', answer_okPattern?_some, Nat.add_sub_cancel], rfl,
      isMarker_or_twoPow ht, toNat_right ht⟩

/-- Settles O39: the pair is what `LCHILD` and `RCHILD` answer. -/
theorem childrenUnsigned : Obligations.ChildrenUnsigned := by
  unfold Obligations.ChildrenUnsigned
  intro f x s h
  rw [exec_childrenU h, exec_lchildU h, exec_rchildU h]
  refine ⟨by cases f <;> rfl, ?_, fun t ht => ⟨?_, fun hpos => ?_⟩⟩
  · rintro rfl
    rw [children_zero, answer_okPair?_none]
  · rintro rfl
    rw [children_of_leaf ht, answer_okPair?_none]
  · have hleft := leftChild_of_marker ht hpos.ne'
    have hright := rightChild_of_marker ht hpos.ne'
    rw [children_eq_some_iff.mpr ⟨hleft, hright⟩, hleft, hright]
    exact ⟨_, _, rfl, rfl, rfl, rfl, rfl⟩

/-- Settles O40: the flipped bit is above the marker, so the sibling keeps the depth, and flipping it again
leads back. -/
theorem siblingUnsigned : Obligations.SiblingUnsigned := by
  unfold Obligations.SiblingUnsigned
  intro f x s h
  rw [exec_siblingU h]
  refine ⟨by cases f <;> rfl, ?_, fun t ht => ⟨?_, fun hlt => ?_⟩⟩
  · rintro rfl
    rw [sibling_zero, answer_okPattern?_none]
  · rintro rfl
    rw [sibling_of_root ht, answer_okPattern?_none]
  · have hmark := isMarker_xor_twoPow_succ ht
    have hdepth : depth (x ^^^ BitVec.twoPow f.width (t + 1)) = depth x := by
      rw [depth_eq_of_marker hmark.1 hmark.2, depth_eq_of_marker ht.1 ht.2]
    exact ⟨x ^^^ BitVec.twoPow f.width (t + 1),
      by rw [sibling_of_marker ht hlt.ne, answer_okPattern?_some], rfl, hmark, hdepth,
      sibling_xor_twoPow_succ ht hlt.ne, parent_xor_twoPow_succ ht hlt.ne⟩

/-- Settles O41: bit 0 is the parity, and nothing is below bit 0. -/
theorem isleafUnsigned : Obligations.IsleafUnsigned := by
  unfold Obligations.IsleafUnsigned
  intro f x s h
  refine ⟨by cases f <;> rfl, ?_, (isLeaf_iff_odd x).symm.trans isLeaf_iff⟩
  simp only [exec_isleafU h, isLeaf_iff_odd]

end Sys2Proof.Machine
end

section
/-! The value of a pattern (30_encoding.md R52) is the decoder's: the bounds of the decoder are the nearest
smaller and larger ancestors of the node. So the order of patterns (42_compare.md R112) is the order of
values. -/

namespace Sys2Proof.Machine

/-! ### The nearest ancestors are the bounds -/

theorem Frac.below_asymm {p q : Frac} (h : p.below q = true) : q.below p = false := by
  rw [Bool.eq_false_iff, ne_eq, Frac.below_iff] at *
  exact h.asymm

/-- The ancestors, the nearest first, have `b.lower` as the nearest smaller and `b.upper` as the nearest
larger of every value strictly between the two: so also of the nodes further down. -/
def Bounds.Nearest (b : Bounds) (ancestors : List Frac) : Prop :=
  ∀ v : Frac, b.lower.below v = true → v.below b.upper = true →
    Node.smaller ⟨v, ancestors⟩ = b.lower ∧ Node.larger ⟨v, ancestors⟩ = b.upper

theorem Bounds.nearest_seed : Bounds.seed.Nearest [] := fun _ _ _ => ⟨rfl, rfl⟩

/-- The new ancestor is on one side of everything below the step, where it is the nearest; on the other side
the search passes it by. -/
theorem Bounds.Nearest.descend {b : Bounds} {ancestors : List Frac} (h : b.Nearest ancestors)
    (hb : b.Ordered) (bit : Bool) : (b.descend bit).Nearest (b.mid :: ancestors) := by
  intro v hlower hupper
  cases bit with
  | false =>
    have hmid : v.below b.mid = true := hupper
    obtain ⟨hsmaller, -⟩ := h v hlower (Frac.below_trans hmid hb.2)
    refine ⟨?_, by simp [Node.larger, hmid]⟩
    rw [Node.smaller, List.find?_cons_of_neg (by simp [Frac.below_asymm hmid])]
    exact hsmaller
  | true =>
    have hmid : b.mid.below v = true := hlower
    obtain ⟨-, hlarger⟩ := h v (Frac.below_trans hb.1 hmid) hupper
    refine ⟨by simp [Node.smaller, hmid], ?_⟩
    rw [Node.larger, List.find?_cons_of_neg (by simp [Frac.below_asymm hmid])]
    exact hlarger

/-- The node and the decoder's bounds agree after every path. -/
theorem foldl_child_root (path : List Bool) :
    (path.foldl Node.child Node.root).value = (boundsAlong path).mid ∧
      (boundsAlong path).Nearest (path.foldl Node.child Node.root).ancestors := by
  induction path using List.reverseRecOn with
  | nil => exact ⟨rfl, Bounds.nearest_seed⟩
  | append_singleton path bit ih =>
    rw [List.foldl_append, List.foldl_cons, List.foldl_nil, boundsAlong_concat]
    obtain ⟨hvalue, hnearest⟩ := ih
    have hordered := ordered_boundsAlong path
    obtain ⟨hsmaller, hlarger⟩ := hnearest _ hordered.1 hordered.2
    rw [← hvalue] at hsmaller hlarger
    refine ⟨?_, ?_⟩
    · cases bit with
      | false => exact congrArg₂ mediant hsmaller hvalue
      | true => exact congrArg₂ mediant hvalue hlarger
    · rw [Node.child, hvalue]
      exact hnearest.descend hordered bit

section
variable {w : Nat} {x y : BitVec w}

theorem patternValue_eq_toRat_decodeFrac (x : BitVec w) : patternValue x = (decodeFrac x).toRat := by
  by_cases hx : x = 0#w
  · rw [patternValue, if_pos hx, hx, decodeFrac_zero]
    simp [Frac.toRat]
  · rw [patternValue, if_neg hx, decodeFrac_of_ne hx, patternNode, (foldl_child_root _).1]

/-! ### The order of values -/

theorem den_decodeFrac_pos (x : BitVec w) : 0 < (decodeFrac x).den := by
  by_cases hx : x = 0#w
  · rw [hx, decodeFrac_zero]
    exact Nat.one_pos
  · rw [decodeFrac_of_ne hx]
    have hupper := (Frac.below_iff _ _).mp (ordered_boundsAlong (pathBits x)).2
    exact Nat.pos_of_mul_pos_left (Nat.zero_lt_of_lt hupper)

theorem Frac.toRat_lt_toRat_iff {p q : Frac} (hp : 0 < p.den) (hq : 0 < q.den) :
    p.toRat < q.toRat ↔ p.num * q.den < q.num * p.den := by
  rw [Frac.toRat, Frac.toRat, div_lt_div_iff₀ (by exact_mod_cast hp) (by exact_mod_cast hq)]
  exact_mod_cast Iff.rfl

/-- The order of patterns is the order of their values (R112). -/
theorem patternValue_lt_patternValue_iff : patternValue x < patternValue y ↔ x.toNat < y.toNat := by
  rw [patternValue_eq_toRat_decodeFrac, patternValue_eq_toRat_decodeFrac,
    Frac.toRat_lt_toRat_iff (den_decodeFrac_pos x) (den_decodeFrac_pos y),
    (patternOrderIsValueOrder w x y).1]

end

end Sys2Proof.Machine
end

section
/-! The guarantees of the Navigator (44_navigate.md R132): a step to a child adds one decision to the path,
and depth, value and reachability follow from the paths. -/

namespace Sys2Proof.Machine

section
variable {w t i : Nat} {x p : BitVec w} {bit : Bool}

/-! ### The path of a child -/

theorem bitsAbove_succ_concat (x : BitVec w) (h : i + 1 < w) :
    bitsAbove x (i + 1) ++ [x.getLsbD (i + 1)] = bitsAbove x i := by
  rw [bitsAbove, bitsAbove, show w - 1 - i = w - 1 - (i + 1) + 1 by omega, List.range_succ,
    List.map_append, List.map_singleton, show w - 1 - (w - 1 - (i + 1)) = i + 1 by omega]

/-- The path of a node is its parent's and one decision more. -/
theorem pathBits_of_childAt (h : childAt p bit = some x) : pathBits x = pathBits p ++ [bit] := by
  obtain ⟨hparent, hbit⟩ := childAt_eq_some_iff.mp h
  obtain ⟨t, hx, ht, rfl⟩ := parent_eq_some_iff.mp hparent
  rw [tzcnt_of_isMarker hx] at hbit
  have habove : bitsAbove x (t + 1) = bitsAbove (moveMarker x t (t + 1)) (t + 1) := by
    refine bitsAbove_congr fun j hj => ?_
    rw [getLsbD_moveMarker]
    have hwidth : x.getLsbD j = true → j < w := BitVec.lt_of_getLsbD
    grind
  rw [← bitsAbove_tzcnt, ← bitsAbove_tzcnt, tzcnt_of_isMarker hx,
    tzcnt_of_isMarker (isMarker_moveMarker_succ hx ht), ← bitsAbove_succ_concat x ht, habove, hbit]

/-- One level deeper (R132 item 4). -/
theorem depth_of_childAt (h : childAt p bit = some x) : depth x = depth p + 1 := by
  rw [← length_pathBits, pathBits_of_childAt h, List.length_append, length_pathBits,
    List.length_singleton]

theorem ne_zero_of_parent (h : parent x = some p) : x ≠ 0#w ∧ p ≠ 0#w := by
  obtain ⟨t, hx, ht, rfl⟩ := parent_eq_some_iff.mp h
  exact ⟨ne_zero_of_marker hx.1, ne_zero_of_marker (isMarker_moveMarker_succ hx ht).1⟩

/-- A child decodes to one step of the decoder from its node. -/
theorem decodeFrac_of_childAt (h : childAt p bit = some x) :
    decodeFrac x = ((boundsAlong (pathBits p)).descend bit).mid := by
  obtain ⟨hx, -⟩ := ne_zero_of_parent (childAt_eq_some_iff.mp h).1
  rw [decodeFrac_of_ne hx, pathBits_of_childAt h, boundsAlong_concat]

/-! ### Every node is reached from the root by its path (R132 item 5) -/

theorem pathBits_eq_nil_iff (hx : x ≠ 0#w) : pathBits x = [] ↔ x = BitVec.twoPow w (w - 1) := by
  rw [eq_root_iff hx, ← List.length_eq_zero_iff, length_pathBits, depth]
  have := tzcnt_lt hx
  omega

/-- Below the root there is a parent. -/
theorem exists_childAt_of_pathBits_ne_nil (hx : x ≠ 0#w) (h : pathBits x ≠ []) :
    ∃ p bit, childAt p bit = some x := by
  have htop : tzcnt x ≠ w - 1 := by rwa [ne_eq, pathBits_eq_nil_iff hx, eq_root_iff hx] at h
  exact ⟨_, _, childAt_eq_some_iff.mpr ⟨parent_of_marker (isMarker_tzcnt hx) htop, rfl⟩⟩

/-- The child steps from the root that reach `x` are its path bits: the last step is the one from its
parent. -/
theorem foldlM_childAt_root_iff (path : List Bool) (hx : x ≠ 0#w) :
    path.foldlM childAt (BitVec.twoPow w (w - 1)) = some x ↔ path = pathBits x := by
  induction path using List.reverseRecOn generalizing x with
  | nil =>
    calc some (BitVec.twoPow w (w - 1)) = some x
        ↔ x = BitVec.twoPow w (w - 1) := by rw [Option.some.injEq, eq_comm]
      _ ↔ pathBits x = [] := (pathBits_eq_nil_iff hx).symm
      _ ↔ [] = pathBits x := eq_comm
  | append_singleton path bit ih =>
    simp only [List.foldlM_append, List.foldlM_cons, List.foldlM_nil, bind_pure, Option.bind_eq_bind,
      Option.bind_eq_some_iff]
    constructor
    · rintro ⟨p, hpath, hstep⟩
      obtain ⟨-, hp⟩ := ne_zero_of_parent (childAt_eq_some_iff.mp hstep).1
      rw [pathBits_of_childAt hstep, (ih hp).mp hpath]
    · intro hpath
      obtain ⟨p, last, hstep⟩ := exists_childAt_of_pathBits_ne_nil hx (by simp [← hpath])
      obtain ⟨-, hp⟩ := ne_zero_of_parent (childAt_eq_some_iff.mp hstep).1
      rw [pathBits_of_childAt hstep] at hpath
      obtain ⟨rfl, hlast⟩ := List.append_inj' hpath rfl
      obtain rfl : bit = last := List.singleton_inj.mp hlast
      exact ⟨p, (ih hp).mpr rfl, hstep⟩

/-! ### The leaf boundary (R132 item 2) -/

theorem exists_marker_of_not_leaf (hx : x ≠ 0#w) (h : isLeaf x = false) :
    ∃ t, IsMarker x (t + 1) :=
  (isMarker_zero_or_succ hx).resolve_left fun hleaf =>
    Bool.false_ne_true (h.symm.trans (isLeaf_iff.mpr hleaf))

theorem isLeaf_iff_no_children (hx : x ≠ 0#w) :
    isLeaf x = true ↔ leftChild x = none ∧ rightChild x = none := by
  constructor
  · intro h
    have hmark := isLeaf_iff.mp h
    exact ⟨leftChild_of_leaf hmark, rightChild_of_leaf hmark⟩
  · rintro ⟨hleft, -⟩
    by_contra hleaf
    obtain ⟨t, ht⟩ := exists_marker_of_not_leaf hx (by simpa using hleaf)
    rw [leftChild_of_marker ht t.succ_ne_zero] at hleft
    cases hleft

/-! ### The order of a node and its children (R132 item 3) -/

theorem toNat_leftChild_lt {l : BitVec w} (h : leftChild x = some l) : l.toNat < x.toNat := by
  obtain ⟨t, ht⟩ := exists_marker_of_childAt (bit := false) h
  rw [← childAt_false, childAt_of_marker ht] at h
  obtain rfl := Option.some.inj h
  have hsum := toNat_left_add ht
  have hpos := Nat.two_pow_pos t
  simp only [Bool.false_eq_true, if_false]
  omega

theorem toNat_lt_rightChild {r : BitVec w} (h : rightChild x = some r) : x.toNat < r.toNat := by
  obtain ⟨t, ht⟩ := exists_marker_of_childAt (bit := true) h
  rw [← childAt_true, childAt_of_marker ht] at h
  obtain rfl := Option.some.inj h
  rw [if_pos rfl, toNat_right ht]
  exact Nat.lt_add_of_pos_right (Nat.two_pow_pos t)

end

/-- Settles O42: a node above the leaves has both children, and what the items say of a child or of a
sibling it says of a step from the parent. -/
theorem navigatorGuarantees : Obligations.NavigatorGuarantees := by
  unfold Obligations.NavigatorGuarantees
  intro w x _ hx
  refine ⟨fun hleaf => ?_, isLeaf_iff_no_children hx, fun p hp => ?_,
    fun path => foldlM_childAt_root_iff path hx⟩
  · obtain ⟨t, ht⟩ := exists_marker_of_not_leaf hx hleaf
    obtain ⟨l, hl⟩ : ∃ l, childAt x false = some l := ⟨_, childAt_of_marker ht false⟩
    obtain ⟨r, hr⟩ : ∃ r, childAt x true = some r := ⟨_, childAt_of_marker ht true⟩
    have hlt := toNat_leftChild_lt hl
    have hgt := toNat_lt_rightChild hr
    exact ⟨l, r, hl, hr, children_eq_some_iff.mpr ⟨hl, hr⟩,
      (childAt_eq_some_iff.mp hl).1, (childAt_eq_some_iff.mp hr).1, hlt, hgt,
      patternValue_lt_patternValue_iff.mpr hlt, patternValue_lt_patternValue_iff.mpr hgt,
      ⟨decodeFrac_of_childAt hl, decodeFrac_of_childAt hr⟩,
      depth_of_childAt hl, depth_of_childAt hr⟩
  · have hchild : childAt p (x.getLsbD (tzcnt x + 1)) = some x := childAt_eq_some_iff.mpr ⟨hp, rfl⟩
    obtain ⟨y, hy, hother⟩ := exists_sibling_of_childAt hchild
    have hdx := depth_of_childAt hchild
    have hdy := depth_of_childAt hother
    refine ⟨y, hy, (childAt_eq_some_iff.mp hother).1, ?_, hdx.symm, hdy.trans hdx.symm⟩
    cases hbit : x.getLsbD (tzcnt x + 1) with
    | false =>
      rw [hbit] at hchild hother
      exact .inl (children_eq_some_iff.mpr ⟨hchild, hother⟩)
    | true =>
      rw [hbit] at hchild hother
      exact .inr (children_eq_some_iff.mpr ⟨hother, hchild⟩)

end Sys2Proof.Machine
end

section
/-! The `I8` container (30_encoding.md R54, R55): its sign and its magnitude bit by bit, the operations of
the tree on the magnitude as operations on the container, and the operand form they share (R141). -/

namespace Sys2Proof.Machine

/-! ### Sign and magnitude (R54) -/

section
variable {x : BitVec 8} {t : Nat}

@[simp] theorem getLsbD_magnitudeOf (x : BitVec 8) (i : Nat) :
    (magnitudeOf x).getLsbD i = (decide (i < 7) && x.getLsbD i) := by
  simp [magnitudeOf]

@[simp] theorem getLsbD_packSigned (sg : Bool) (m : BitVec 7) (i : Nat) :
    (packSigned sg m).getLsbD i = if i = 7 then sg else m.getLsbD i :=
  BitVec.getLsbD_cons sg m i

@[simp] theorem signOf_packSigned (sg : Bool) (m : BitVec 7) : signOf (packSigned sg m) = sg :=
  getLsbD_packSigned sg m 7

@[simp] theorem magnitudeOf_packSigned (sg : Bool) (m : BitVec 7) :
    magnitudeOf (packSigned sg m) = m := by
  refine BitVec.eq_of_getLsbD_eq fun i hi => ?_
  rw [getLsbD_magnitudeOf, getLsbD_packSigned, if_neg hi.ne, decide_eq_true hi, Bool.true_and]

@[simp] theorem packSigned_signOf_magnitudeOf (x : BitVec 8) :
    packSigned (signOf x) (magnitudeOf x) = x := by
  refine BitVec.eq_of_getLsbD_eq fun i hi => ?_
  rw [getLsbD_packSigned, getLsbD_magnitudeOf]
  split
  · next htop => rw [htop, signOf]
  · next hne => rw [decide_eq_true (by omega), Bool.true_and]

theorem magnitudeOf_eq_setWidth (x : BitVec 8) : magnitudeOf x = x.setWidth 7 := by
  refine BitVec.eq_of_getLsbD_eq fun i hi => ?_
  rw [getLsbD_magnitudeOf, BitVec.getLsbD_setWidth]

theorem toNat_packSigned (sg : Bool) (m : BitVec 7) :
    (packSigned sg m).toNat = (if sg then 128 else 0) + m.toNat := by
  rw [packSigned, BitVec.toNat_cons']
  cases sg <;> rfl

theorem signOf_iff : signOf x = true ↔ 128 ≤ x.toNat := by
  rw [signOf, BitVec.getLsbD, Nat.testBit_eq_decide_div_mod_eq, decide_eq_true_iff]
  omega

/-! ### The marker, and the invalid pattern (R55) -/

/-- The magnitude has its marker where the container has it. -/
theorem isMarker_magnitudeOf (ht : t < 7) (h : IsMarker x t) : IsMarker (magnitudeOf x) t :=
  ⟨by simp [ht, h.1], fun j hj => by simp [h.2 j hj]⟩

/-- The invalid pattern `0x80` has no bit below its sign. -/
theorem ne_invalid_of_isMarker (ht : t < 7) (h : IsMarker x t) : x ≠ 0x80#8 := by
  rintro rfl
  exact absurd (isMarker_magnitudeOf ht h).1 (by simp [show magnitudeOf 0x80#8 = 0#7 from rfl])

/-! ### Moves on the magnitude (R149 to R153) -/

theorem packSigned_moveMarker (sg : Bool) (m : BitVec 7) {t u : Nat} (ht : t < 7) (hu : u < 7) :
    packSigned sg (moveMarker m t u) = moveMarker (packSigned sg m) t u := by
  refine BitVec.eq_of_getLsbD_eq fun i hi => ?_
  rw [getLsbD_packSigned, getLsbD_moveMarker, getLsbD_moveMarker, getLsbD_packSigned]
  grind

theorem packSigned_or_twoPow (sg : Bool) (m : BitVec 7) {u : Nat} (hu : u < 7) :
    packSigned sg (m ||| BitVec.twoPow 7 u) = packSigned sg m ||| BitVec.twoPow 8 u := by
  refine BitVec.eq_of_getLsbD_eq fun i hi => ?_
  rw [getLsbD_packSigned, BitVec.getLsbD_or, BitVec.getLsbD_or, BitVec.getLsbD_twoPow,
    BitVec.getLsbD_twoPow, getLsbD_packSigned]
  grind

theorem packSigned_xor_twoPow (sg : Bool) (m : BitVec 7) {u : Nat} (hu : u < 7) :
    packSigned sg (m ^^^ BitVec.twoPow 7 u) = packSigned sg m ^^^ BitVec.twoPow 8 u := by
  refine BitVec.eq_of_getLsbD_eq fun i hi => ?_
  rw [getLsbD_packSigned, BitVec.getLsbD_xor, BitVec.getLsbD_xor, BitVec.getLsbD_twoPow,
    BitVec.getLsbD_twoPow, getLsbD_packSigned]
  grind

end

/-! ### The operand form and the result form (R141, 30_encoding.md R64) -/

section
variable {x : BitVec 8} {s : State}

theorem answer_withSigned_of_presents (h : s.presents x) (hx : x ≠ 0x80#8)
    (k : Bool → BitVec 7 → Answer) :
    s.answer (withSigned s.req k) = s.answer (k (signOf x) (magnitudeOf x)) := by
  rw [withSigned_clean s.req x h.1 h.2, if_neg hx]

/-- The invalid pattern faults before the operation sees it. -/
theorem answer_withSigned_invalid (h : s.presents 0x80#8) (k : Bool → BitVec 7 → Answer) :
    s.answer (withSigned s.req k) = .next (s.faulted 6) := by
  rw [withSigned_clean s.req 0x80#8 h.1 h.2, if_pos rfl]
  rfl

theorem answer_okPattern {w : Nat} (s : State) (r : BitVec w) :
    s.answer (okPattern r) = .next (s.ok (r.setWidth 64) 0) := rfl

/-- A signed result as a number: 128 for the sign, and the magnitude. -/
theorem answer_okPattern_packSigned (s : State) (sg : Bool) (m : BitVec 7) :
    s.answer (okPattern (packSigned sg m)) =
      .next (s.ok (BitVec.ofNat 64 ((if sg then 128 else 0) + m.toNat)) 0) := by
  rw [answer_okPattern, ← toNat_packSigned, BitVec.ofNat_toNat]

end

end Sys2Proof.Machine
end

section
/-! `DEC.I8` (45_signed.md R142). The numbers of a node `k` steps below the root are at most F(k + 2)
(40_decode.md R83), so a magnitude decodes to a pair of at most F(8) = 21. -/

namespace Sys2Proof.Machine

/-! ### The size of a fraction -/

/-- Numerator and denominator are at most `n`. -/
def Frac.AtMost (p : Frac) (n : Nat) : Prop := p.num ≤ n ∧ p.den ≤ n

theorem Frac.AtMost.mono {p : Frac} {m n : Nat} (h : p.AtMost m) (hmn : m ≤ n) : p.AtMost n :=
  ⟨h.1.trans hmn, h.2.trans hmn⟩

theorem Frac.AtMost.mediant {p q : Frac} {m n : Nat} (hp : p.AtMost m) (hq : q.AtMost n) :
    (mediant p q).AtMost (m + n) :=
  ⟨Nat.add_le_add hp.1 hq.1, Nat.add_le_add hp.2 hq.2⟩

/-- Each step adds the node to one of its bounds, which are a step older: Fibonacci's recurrence. -/
theorem boundsAlong_atMost_fib (path : List Bool) :
    (boundsAlong path).lower.AtMost (Nat.fib (path.length + 1)) ∧
      (boundsAlong path).mid.AtMost (Nat.fib (path.length + 2)) ∧
      (boundsAlong path).upper.AtMost (Nat.fib (path.length + 1)) := by
  induction path using List.reverseRecOn with
  | nil => exact ⟨⟨by decide, by decide⟩, ⟨by decide, by decide⟩, ⟨by decide, by decide⟩⟩
  | append_singleton path bit ih =>
    obtain ⟨hlower, hmid, hupper⟩ := ih
    have hfib : Nat.fib (path.length + 3) = Nat.fib (path.length + 1) + Nat.fib (path.length + 2) :=
      Nat.fib_add_two
    have hmono : Nat.fib (path.length + 1) ≤ Nat.fib (path.length + 2) := Nat.fib_le_fib_succ
    rw [boundsAlong_concat, List.length_append, List.length_singleton, hfib]
    cases bit with
    | false => exact ⟨hlower.mono hmono, hlower.mediant hmid, hmid⟩
    | true => exact ⟨hmid, Nat.add_comm _ _ ▸ hmid.mediant hupper, hupper.mono hmono⟩

theorem decodeFrac_atMost_fib {w : Nat} (x : BitVec w) : (decodeFrac x).AtMost (Nat.fib (w + 1)) := by
  by_cases hx : x = 0#w
  · rw [hx, decodeFrac_zero]
    exact ⟨Nat.zero_le _, Nat.fib_pos.mpr w.succ_pos⟩
  · obtain ⟨-, hmid, -⟩ := boundsAlong_atMost_fib (pathBits x)
    have hdepth := depth_le x
    have hw := (tzcnt_lt hx).pos
    rw [decodeFrac_of_ne hx]
    rw [length_pathBits] at hmid
    exact hmid.mono (Nat.fib_mono (by omega))

/-! ### The result form (30_encoding.md R64) -/

/-- The numerator field is the signed numerator in two's complement. -/
theorem okSignedFrac_eq (negative : Bool) {n : Nat} (hn : n ≤ 256) (d : Nat) :
    okSignedFrac negative n d =
      .ok ((BitVec.ofInt 8 (if negative then -(n : Int) else n)).setWidth 64) (BitVec.ofNat 64 d) := by
  cases negative with
  | false => rfl
  | true =>
    have hneg : BitVec.ofNat 8 (256 - n) = BitVec.ofInt 8 (-(n : Int)) := by
      apply BitVec.eq_of_toNat_eq
      rw [BitVec.toNat_ofNat, BitVec.toNat_ofInt]
      omega
    rw [okSignedFrac, if_pos rfl, if_pos rfl, hneg]

theorem exec_decI8 {x : BitVec 8} {s : State} (h : s.presents x) (hx : x ≠ 0x80#8) :
    exec .decI8 s =
      s.answer (okSignedFrac (signOf x) (decodeFrac (magnitudeOf x)).num
        (decodeFrac (magnitudeOf x)).den) :=
  answer_withSigned_of_presents h hx _

/-- Settles O43: F(8) is 21, far below what the two fields hold. -/
theorem decSigned : Obligations.DecSigned := by
  unfold Obligations.DecSigned
  intro x s h
  obtain ⟨hnum, hden⟩ : (decodeFrac (x.setWidth 7)).AtMost 21 := decodeFrac_atMost_fib _
  refine ⟨rfl, ?_, fun hx => ?_, hnum, den_decodeFrac_pos _, hden⟩
  · rintro rfl
    exact answer_withSigned_invalid h _
  · rw [exec_decI8 h hx, magnitudeOf_eq_setWidth, okSignedFrac_eq _ (hnum.trans (by norm_num))]
    simp only [signOf_iff]
    rfl

end Sys2Proof.Machine
end

section
/-! `ENC_INT.I8` (45_signed.md R143): the magnitude of the integer is encoded at width 7 and its sign
copied. -/

namespace Sys2Proof.Machine

section
variable {n : Int} {s : State}

theorem exec_encIntI8 (hlo : -128 ≤ n) (hhi : n ≤ 127) (h : s.presents (BitVec.ofInt 8 n)) :
    exec .encIntI8 s =
      s.answer (if 7 < n.natAbs then .domainError .intTooLarge
        else okPattern (packSigned (decide (n < 0)) (encInt 7 n.natAbs))) := by
  have hread : (BitVec.ofInt 8 n).toInt = n :=
    BitVec.toInt_ofInt_eq_self (by norm_num) hlo (Int.lt_add_one_of_le hhi)
  refine (congrArg s.answer (withSint8_clean s.req _ h.1 h.2 _)).trans ?_
  rw [hread]

/-- A bit above the 8-bit container fails the range check. -/
theorem exec_encIntI8_of_out_of_range (hb : s.req.b = 0#64) (ha : 256 ≤ s.req.a.toNat) :
    exec .encIntI8 s = .next (s.faulted 5) := by
  have hrefusal : OperandForm.sint8.refusal s.req = some .operandRange := by
    rw [OperandForm.refusal, raiseUnless_of hb, raiseUnless, if_neg (by omega)]
    rfl
  refine (congrArg s.answer (withSint8_eq_elim s.req _)).trans ?_
  rw [hrefusal]
  rfl

end

/-- Settles O44: no operand wraps around, −128 included, because the magnitude is a natural number. -/
theorem encIntSigned : Obligations.EncIntSigned := by
  unfold Obligations.EncIntSigned
  refine ⟨rfl, fun n s hlo hhi h => ⟨fun hlarge => ?_, fun hsmall => ?_⟩,
    fun s => exec_encIntI8_of_out_of_range⟩
  · rw [exec_encIntI8 hlo hhi h, if_pos hlarge]
    rfl
  · rw [exec_encIntI8 hlo hhi h, if_neg (by omega), answer_okPattern_packSigned]
    simp only [decide_eq_true_eq]

end Sys2Proof.Machine
end

section
/-! The fields of a binary64 operand as arithmetic on its number (30_encoding.md R56, R57). -/

namespace Sys2Proof.Machine

section
variable {a : Word}

theorem fltExponent_eq (a : Word) : fltExponent a = a.toNat / 2 ^ 52 % 2 ^ 11 := by
  rw [fltExponent, BitVec.extractLsb'_toNat, Nat.shiftRight_eq_div_pow]

theorem fltFraction_eq (a : Word) : fltFraction a = a.toNat % 2 ^ 52 := by
  rw [fltFraction, BitVec.extractLsb'_toNat, Nat.shiftRight_zero]

theorem fltSign_iff : fltSign a = true ↔ 2 ^ 63 ≤ a.toNat := by
  rw [fltSign, BitVec.getLsbD, Nat.testBit_eq_decide_div_mod_eq, decide_eq_true_iff]
  omega

theorem isNan_iff : isNan a = true ↔ fltExponent a = 0x7FF ∧ fltFraction a ≠ 0 := by
  simp [isNan]

theorem isInf_iff : isInf a = true ↔ fltExponent a = 0x7FF ∧ fltFraction a = 0 := by
  simp [isInf]

theorem floatMagnitude_nonneg (a : Word) : 0 ≤ floatMagnitude a := by
  unfold floatMagnitude
  split <;> positivity

end

end Sys2Proof.Machine
end

section
/-! The float search (41_encode.md R98): its result is never the zero pattern, and an operand beyond the nodes
of one edge of the tree is searched for along that edge (R101). -/

namespace Sys2Proof.Machine

/-! ### A result has a marker (R102 item 3) -/

/-- The bit the search appends to every path is the marker. -/
theorem emit_ne_zero {w : Nat} (hw : 0 < w) (path k : Nat) : emit w path k ≠ 0#w := by
  refine ne_zero_of_marker (t := w - 1 - k) ?_
  have hk : w - 1 - k < w := by omega
  simp [emit, hk]

theorem emitRecord_ne_zero {w : Nat} (hw : 0 < w) (st : Search) (bound : Option (Nat × Nat)) :
    st.emitRecord w bound ≠ 0#w := by
  cases bound <;> exact emit_ne_zero hw _ _

theorem finish_ne_zero {w : Nat} (hw : 0 < w) (cmp : Frac → Ordering) (st : Search) :
    st.finish w cmp ≠ 0#w := by
  unfold Search.finish
  split
  · exact emit_ne_zero hw _ _
  · exact emitRecord_ne_zero hw st _
  · exact emitRecord_ne_zero hw st _

theorem encFlt_ne_zero (mode : FcmpMode) {w : Nat} (hw : 0 < w) (v : Nat) : encFlt mode w v ≠ 0#w :=
  searchFrom_induction (fun _ => True) (· ≠ 0#w) (fun _ _ => trivial) (fun _ _ => trivial)
    (fun _ _ => emit_ne_zero hw _ _) (fun st _ => finish_ne_zero hw _ st) _ _ trivial

/-! ### The final comparison without a hit -/

theorem finish_of_gt {w : Nat} {cmp : Frac → Ordering} {st : Search} (h : cmp st.bounds.mid = .gt) :
    st.finish w cmp = st.emitRecord w st.upRec := by
  rw [Search.finish, h]

theorem finish_of_lt {w : Nat} {cmp : Frac → Ordering} {st : Search} (h : cmp st.bounds.mid = .lt) :
    st.finish w cmp = st.emitRecord w st.loRec := by
  rw [Search.finish, h]

/-! ### Straight searches -/

section
variable {w n : Nat} {cmp : Frac → Ordering} {bit : Bool}

/-- One step of the search, by the path bit it appends. -/
def Search.go (st : Search) : Bool → Search
  | false => st.goLower
  | true => st.goUpper

/-- The search after `n` steps that all append the same bit. -/
def Search.straight (bit : Bool) (n : Nat) : Search := (List.replicate n bit).foldl Search.go Search.start

theorem Search.straight_succ (bit : Bool) (n : Nat) :
    Search.straight bit (n + 1) = (Search.straight bit n).go bit := by
  rw [straight, straight, List.replicate_succ', List.foldl_append, List.foldl_cons, List.foldl_nil]

/-- The search and the decoder keep the same bounds. -/
theorem Search.straight_bounds (bit : Bool) (n : Nat) :
    (Search.straight bit n).bounds = boundsAlong (List.replicate n bit) :=
  (List.foldl_hom Search.bounds fun st b => by cases b <;> rfl).symm

/-- The side of the operand on which a node lies where the search appends `bit`: too large before a 0, too
small before a 1. -/
def sideBefore : Bool → Ordering
  | false => .gt
  | true => .lt

theorem searchFrom_succ_of_side (st : Search) (h : cmp st.bounds.mid = sideBefore bit) :
    searchFrom w cmp (n + 1) st = searchFrom w cmp n (st.go bit) := by
  rw [searchFrom_succ, h]
  cases bit <;> rfl

/-- While the nodes of an edge are all on one side of the operand, the search follows the edge. -/
theorem searchFrom_straight (m : Nat)
    (h : ∀ k < n, cmp (boundsAlong (List.replicate k bit)).mid = sideBefore bit) :
    searchFrom w cmp (m + n) Search.start = searchFrom w cmp m (Search.straight bit n) := by
  induction n generalizing m with
  | zero => rfl
  | succ n ih =>
    rw [show m + (n + 1) = m + 1 + n by omega, ih (m + 1) fun k hk => h k (by omega),
      searchFrom_succ_of_side, Search.straight_succ]
    rw [Search.straight_bounds]
    exact h n n.lt_succ_self

theorem encFlt_of_straight {v : Nat}
    (h : ∀ k < w - 1, fcmp .exact (boundsAlong (List.replicate k bit)).mid v = sideBefore bit) :
    encFlt .exact w v =
      (Search.straight bit (w - 1)).finish w fun p => fcmp .exact p v := by
  have hsearch := searchFrom_straight (w := w) (cmp := fun p => fcmp .exact p v) 0 h
  rwa [Nat.zero_add, searchFrom_zero] at hsearch

end

/-! ### The operand against the nodes of the two edges -/

section
variable {a : Word} {n : Nat}

/-- The left edge: the node after `n` steps is 1/(n + 1). -/
theorem fcmp_left_edge (h : floatMagnitude a * (n + 1) < 1) :
    fcmp .exact (boundsAlong (List.replicate n false)).mid (magUnits a) = .gt := by
  rw [boundsAlong_replicate_false, fcmp_exact_eq_compare, compare_gt_iff_gt]
  simpa using h

/-- The right edge: the node after `n` steps is (n + 1)/1. -/
theorem fcmp_right_edge (a : Word) (n : Nat) :
    fcmp .exact (boundsAlong (List.replicate n true)).mid (magUnits a) =
      compare ((n : ℚ) + 1) (floatMagnitude a) := by
  rw [boundsAlong_replicate_true, fcmp_exact_eq_compare]
  simp

theorem fcmp_right_edge_lt (h : (n : ℚ) + 1 < floatMagnitude a) :
    fcmp .exact (boundsAlong (List.replicate n true)).mid (magUnits a) = .lt := by
  rw [fcmp_right_edge, compare_lt_iff_lt.mpr h]

theorem fcmp_right_edge_gt (h : floatMagnitude a < (n : ℚ) + 1) :
    fcmp .exact (boundsAlong (List.replicate n true)).mid (magUnits a) = .gt := by
  rw [fcmp_right_edge, compare_gt_iff_gt.mpr h]

end

end Sys2Proof.Machine
end

section
/-! `ENC_FLT.I8` (45_signed.md R144): the magnitude of the operand is searched for at width 7 and its sign
copied. -/

namespace Sys2Proof.Machine

/-! ### The corner cases at width 7 (R101, R144) -/

section
variable {a : Word}

/-- Below 1/7 all seven nodes of the left edge are too large, and the last one recorded is 1/6. -/
theorem encFlt_seven_of_lt (h : floatMagnitude a < 1 / 7) : encFlt .exact 7 (magUnits a) = 0x02#7 := by
  have hnonneg := floatMagnitude_nonneg a
  have hside : ∀ k ≤ 6, fcmp .exact (boundsAlong (List.replicate k false)).mid (magUnits a) = .gt := by
    intro k hk
    have hk : (k : ℚ) ≤ 6 := by exact_mod_cast hk
    refine fcmp_left_edge ?_
    calc floatMagnitude a * (k + 1)
        ≤ floatMagnitude a * 7 := mul_le_mul_of_nonneg_left (by linarith) hnonneg
      _ < 1 := by linarith
  rw [encFlt_of_straight (bit := false) fun k hk => hside k (by omega), finish_of_gt]
  · rfl
  · rw [Search.straight_bounds]
    exact hside 6 le_rfl

theorem encFlt_seven_of_six_lt (h : 6 < floatMagnitude a) :
    encFlt .exact 7 (magUnits a) =
      (Search.straight true 6).finish 7 fun p => fcmp .exact p (magUnits a) := by
  refine encFlt_of_straight fun k hk => ?_
  have hk : (k : ℚ) + 1 ≤ 6 := by exact_mod_cast (hk : k + 1 ≤ 6)
  exact fcmp_right_edge_lt (hk.trans_lt h)

/-- Between 6 and 7 the last node 7/1 is the only one above the operand: no upper bound is recorded (R99). -/
theorem encFlt_seven_of_between (hlo : 6 < floatMagnitude a) (hhi : floatMagnitude a < 7) :
    encFlt .exact 7 (magUnits a) = 0x7F#7 := by
  rw [encFlt_seven_of_six_lt hlo, finish_of_gt]
  · rfl
  · rw [Search.straight_bounds]
    exact fcmp_right_edge_gt (by exact_mod_cast hhi)

/-- Above 7 every node of the right edge is too small, and the last one recorded is 6/1. -/
theorem encFlt_seven_of_gt (h : 7 < floatMagnitude a) : encFlt .exact 7 (magUnits a) = 0x7E#7 := by
  rw [encFlt_seven_of_six_lt (by linarith), finish_of_lt]
  · rfl
  · rw [Search.straight_bounds]
    exact fcmp_right_edge_lt (by exact_mod_cast h)

end

/-! ### The instruction -/

section
variable {s : State}

theorem exec_encFltI8 (hb : s.req.b = 0#64) :
    exec .encFltI8 s =
      s.answer (if isNan s.req.a then .domainError .fltNan
        else if isInf s.req.a then .domainError .fltInfinite
        else okPattern (packSigned (fltSign s.req.a) (encFlt .exact 7 (magUnits s.req.a)))) :=
  congrArg s.answer (withFloat_clean s.req hb _)

theorem exec_encFltI8_of_finite (hb : s.req.b = 0#64) (hfinite : fltExponent s.req.a ≠ 0x7FF) :
    exec .encFltI8 s = .next (s.ok (BitVec.ofNat 64
      ((if 2 ^ 63 ≤ s.req.a.toNat then 128 else 0) +
        (encFlt .exact 7 (magUnits s.req.a)).toNat)) 0) := by
  rw [exec_encFltI8 hb, if_neg fun h => hfinite (isNan_iff.mp h).1,
    if_neg fun h => hfinite (isInf_iff.mp h).1, answer_okPattern_packSigned]
  simp only [fltSign_iff]

end

/-- Settles O45: a finite operand is encoded by its magnitude, and the three ranges are searched for along
the edges of the tree. -/
theorem encFltSigned : Obligations.EncFltSigned := by
  unfold Obligations.EncFltSigned
  refine ⟨rfl, fun s hb => ?_⟩
  simp only [← fltExponent_eq, ← fltFraction_eq]
  refine ⟨fun he hm => ?_, fun he hm => ?_, fun he => ?_⟩
  · rw [exec_encFltI8 hb, if_pos (isNan_iff.mpr ⟨he, hm⟩)]
    rfl
  · rw [exec_encFltI8 hb, if_neg fun h => (isNan_iff.mp h).2 hm, if_pos (isInf_iff.mpr ⟨he, hm⟩)]
    rfl
  · rw [exec_encFltI8_of_finite hb he]
    refine ⟨encFlt_ne_zero _ (by norm_num) _, rfl, fun h => ?_, fun hlo hhi => ?_, fun h => ?_⟩
    · rw [encFlt_seven_of_lt h]
      rfl
    · rw [encFlt_seven_of_between hlo hhi]
      rfl
    · rw [encFlt_seven_of_gt h]
      rfl

end Sys2Proof.Machine
end

section
/-! `INV`, `INV_CHK` and `INV_UNCHK` on `I8` (45_signed.md R146 to R148): the magnitude is inverted, the sign
kept; the three differ on zero. -/

namespace Sys2Proof.Machine

section
variable {x : BitVec 8} {s : State}

/-- The inversion of a signed pattern: that of its magnitude, with its sign. -/
def invertSigned (x : BitVec 8) : BitVec 8 := packSigned (signOf x) (invert (magnitudeOf x))

theorem exec_invI8 (h : s.presents x) (hx : x ≠ 0x80#8) :
    exec .invI8 s =
      .next (if magnitudeOf x = 0#7 then s.ok 0x7F 0 else s.ok ((invertSigned x).setWidth 64) 0) := by
  refine (answer_withSigned_of_presents h hx _).trans ?_
  split <;> rfl

theorem exec_invChkI8 (h : s.presents x) (hx : x ≠ 0x80#8) :
    exec .invChkI8 s =
      .next (if magnitudeOf x = 0#7 then s.absent else s.ok ((invertSigned x).setWidth 64) 0) := by
  refine (answer_withSigned_of_presents h hx _).trans ?_
  split <;> rfl

theorem exec_invUnchkI8 (h : s.presents x) (hx : x ≠ 0x80#8) :
    exec .invUnchkI8 s = .next (s.ok ((invertSigned x).setWidth 64) 0) :=
  answer_withSigned_of_presents h hx _

/-- The bits between the marker and the sign are flipped. -/
theorem getLsbD_invertSigned {t i : Nat} (ht : t < 7) (hmark : IsMarker x t) (hi : i < 8) :
    (invertSigned x).getLsbD i = if t < i ∧ i < 7 then !x.getLsbD i else x.getLsbD i := by
  rw [invertSigned, getLsbD_packSigned, getLsbD_invert, getLsbD_magnitudeOf,
    tzcnt_of_isMarker (isMarker_magnitudeOf ht hmark)]
  rcases (Nat.le_of_lt_succ hi).eq_or_lt with rfl | hi7
  · rw [if_pos rfl, if_neg (by omega), signOf]
  · rw [if_neg hi7.ne, decide_eq_true hi7, Bool.true_and]
    by_cases hti : t < i
    · rw [decide_eq_true ⟨hti, hi7⟩, if_pos ⟨hti, hi7⟩, Bool.xor_true]
    · rw [decide_eq_false fun h => hti h.1, if_neg fun h => hti h.1, Bool.xor_false]

end

/-- Settles O48: the common pattern is `invertSigned`. -/
theorem inverterSigned : Obligations.InverterSigned := by
  unfold Obligations.InverterSigned
  refine ⟨rfl, rfl, rfl, fun x s h => ⟨?_, ?_, fun t ht hmark => ?_⟩⟩
  · rintro rfl
    exact ⟨answer_withSigned_invalid h _, answer_withSigned_invalid h _, answer_withSigned_invalid h _⟩
  · rintro rfl
    have hvalid : 0#8 ≠ 0x80#8 := by decide
    exact ⟨exec_invI8 h hvalid, exec_invChkI8 h hvalid, exec_invUnchkI8 h hvalid⟩
  · have hvalid := ne_invalid_of_isMarker ht hmark
    have hne : magnitudeOf x ≠ 0#7 := ne_zero_of_marker (isMarker_magnitudeOf ht hmark).1
    exact ⟨invertSigned x, by rw [exec_invI8 h hvalid, if_neg hne],
      by rw [exec_invChkI8 h hvalid, if_neg hne], exec_invUnchkI8 h hvalid,
      fun i hi => getLsbD_invertSigned ht hmark hi⟩

end Sys2Proof.Machine
end

section
/-! The Navigator's operations on `I8` (45_signed.md R149 to R154): each moves the marker of the magnitude and
keeps the sign, which makes the left child of a negative node the larger value. -/

namespace Sys2Proof.Machine

section
variable {x : BitVec 8} {s : State}

theorem exec_parentI8 (h : s.presents x) (hx : x ≠ 0x80#8) :
    exec .parentI8 s = s.answer (okPattern? ((parent (magnitudeOf x)).map (packSigned (signOf x)))) :=
  answer_withSigned_of_presents h hx _

theorem exec_lchildI8 (h : s.presents x) (hx : x ≠ 0x80#8) :
    exec .lchildI8 s =
      s.answer (okPattern? ((leftChild (magnitudeOf x)).map (packSigned (signOf x)))) :=
  answer_withSigned_of_presents h hx _

theorem exec_rchildI8 (h : s.presents x) (hx : x ≠ 0x80#8) :
    exec .rchildI8 s =
      s.answer (okPattern? ((rightChild (magnitudeOf x)).map (packSigned (signOf x)))) :=
  answer_withSigned_of_presents h hx _

theorem exec_childrenI8 (h : s.presents x) (hx : x ≠ 0x80#8) :
    exec .childrenI8 s =
      s.answer (okPair? ((children (magnitudeOf x)).map
        fun p => (packSigned (signOf x) p.1, packSigned (signOf x) p.2))) :=
  answer_withSigned_of_presents h hx _

theorem exec_siblingI8 (h : s.presents x) (hx : x ≠ 0x80#8) :
    exec .siblingI8 s =
      s.answer (okPattern? ((sibling (magnitudeOf x)).map (packSigned (signOf x)))) :=
  answer_withSigned_of_presents h hx _

theorem exec_isleafI8 (h : s.presents x) (hx : x ≠ 0x80#8) :
    exec .isleafI8 s = .next (s.ok (if isLeaf (magnitudeOf x) then 1 else 0) 0) :=
  (answer_withSigned_of_presents h hx _).trans (answer_okBool s _)

/-- Bit 0 belongs to the magnitude. -/
theorem isLeaf_magnitudeOf (x : BitVec 8) : isLeaf (magnitudeOf x) = isLeaf x :=
  getLsbD_magnitudeOf x 0

/-! ### The moves on the container -/

section
variable {t : Nat} (ht : t < 7) (hmark : IsMarker x t)
include ht hmark

theorem map_parent_magnitudeOf (hlt : t < 6) :
    (parent (magnitudeOf x)).map (packSigned (signOf x)) = some (moveMarker x t (t + 1)) := by
  rw [parent_of_marker (isMarker_magnitudeOf ht hmark) hlt.ne, Option.map_some,
    packSigned_moveMarker _ _ ht (by omega), packSigned_signOf_magnitudeOf]

theorem map_sibling_magnitudeOf (hlt : t < 6) :
    (sibling (magnitudeOf x)).map (packSigned (signOf x)) =
      some (x ^^^ BitVec.twoPow 8 (t + 1)) := by
  rw [sibling_of_marker (isMarker_magnitudeOf ht hmark) hlt.ne, Option.map_some,
    packSigned_xor_twoPow _ _ (by omega), packSigned_signOf_magnitudeOf]

theorem map_leftChild_magnitudeOf (hpos : 0 < t) :
    (leftChild (magnitudeOf x)).map (packSigned (signOf x)) = some (moveMarker x t (t - 1)) := by
  rw [leftChild_of_marker (isMarker_magnitudeOf ht hmark) hpos.ne', Option.map_some,
    packSigned_moveMarker _ _ ht (by omega), packSigned_signOf_magnitudeOf]

theorem map_rightChild_magnitudeOf (hpos : 0 < t) :
    (rightChild (magnitudeOf x)).map (packSigned (signOf x)) =
      some (x ||| BitVec.twoPow 8 (t - 1)) := by
  rw [rightChild_of_marker (isMarker_magnitudeOf ht hmark) hpos.ne', Option.map_some,
    packSigned_or_twoPow _ _ (by omega), packSigned_signOf_magnitudeOf]

end

/-- The pair that `CHILDREN` answers is the answers of `LCHILD` and `RCHILD`. -/
theorem map_children_eq_some_iff {w v : Nat} {m : BitVec w} {f : BitVec w → BitVec v}
    {l r : BitVec v} : (children m).map (fun p => (f p.1, f p.2)) = some (l, r) ↔
      (leftChild m).map f = some l ∧ (rightChild m).map f = some r := by
  unfold children
  cases leftChild m <;> cases rightChild m <;> simp

/-! ### The left child of a signed node (R150) -/

theorem signedValue_packSigned (sg : Bool) (m : BitVec 7) :
    signedValue (packSigned sg m) = (if sg then -1 else 1) * patternValue m := by
  rw [signedValue, signOf_packSigned, magnitudeOf_packSigned]

/-- The left child has the smaller magnitude: a positive one is the smaller value, a negative one the
larger. -/
theorem signedValue_of_map_leftChild {l : BitVec 8}
    (h : (leftChild (magnitudeOf x)).map (packSigned (signOf x)) = some l) :
    (signOf x = false → signedValue l < signedValue x) ∧
      (signOf x = true → signedValue x < signedValue l) := by
  obtain ⟨m, hm, rfl⟩ := Option.map_eq_some_iff.mp h
  have hlt := patternValue_lt_patternValue_iff.mpr (toNat_leftChild_lt hm)
  rw [signedValue_packSigned, signedValue]
  refine ⟨fun hsg => ?_, fun hsg => ?_⟩
  · simpa [hsg] using hlt
  · simpa [hsg] using hlt

end

/-- Settles O49: above the root's marker there is only the sign, so zero and the two roots have neither
parent nor sibling. -/
theorem parentSiblingIsleafSigned : Obligations.ParentSiblingIsleafSigned := by
  unfold Obligations.ParentSiblingIsleafSigned
  refine ⟨rfl, rfl, rfl, fun x s h => ⟨?_, ?_, fun hx => ?_, fun t ht hmark => ⟨?_, fun hlt => ?_⟩⟩⟩
  · rintro rfl
    exact ⟨answer_withSigned_invalid h _, answer_withSigned_invalid h _, answer_withSigned_invalid h _⟩
  · rintro rfl
    have hvalid : 0#8 ≠ 0x80#8 := by decide
    exact ⟨exec_parentI8 h hvalid, exec_siblingI8 h hvalid⟩
  · simp only [exec_isleafI8 h hx, isLeaf_magnitudeOf, isLeaf_iff_odd]
  · rintro rfl
    have hvalid := ne_invalid_of_isMarker ht hmark
    have hroot := isMarker_magnitudeOf ht hmark
    rw [exec_parentI8 h hvalid, exec_siblingI8 h hvalid, parent_of_root hroot, sibling_of_root hroot]
    exact ⟨rfl, rfl⟩
  · have hvalid := ne_invalid_of_isMarker ht hmark
    rw [exec_parentI8 h hvalid, exec_siblingI8 h hvalid, map_parent_magnitudeOf ht hmark hlt,
      map_sibling_magnitudeOf ht hmark hlt]
    exact ⟨rfl, rfl⟩

/-- Settles O50: the pair is what `LCHILD` and `RCHILD` answer, and the left child is the one with the smaller
magnitude. -/
theorem childrenSigned : Obligations.ChildrenSigned := by
  unfold Obligations.ChildrenSigned
  refine ⟨rfl, rfl, rfl, fun x s h => ⟨?_, ?_, fun t ht hpos hmark => ?_⟩⟩
  · rintro rfl
    exact ⟨answer_withSigned_invalid h _, answer_withSigned_invalid h _, answer_withSigned_invalid h _⟩
  · rintro (rfl | hodd)
    · have hvalid : 0#8 ≠ 0x80#8 := by decide
      exact ⟨exec_lchildI8 h hvalid, exec_rchildI8 h hvalid, exec_childrenI8 h hvalid⟩
    · have hmark : IsMarker x 0 := isLeaf_iff.mp ((isLeaf_iff_odd x).mpr hodd)
      have hvalid := ne_invalid_of_isMarker (by norm_num) hmark
      have hleaf := isMarker_magnitudeOf (by norm_num) hmark
      rw [exec_lchildI8 h hvalid, exec_rchildI8 h hvalid, exec_childrenI8 h hvalid,
        leftChild_of_leaf hleaf, rightChild_of_leaf hleaf, children_of_leaf hleaf]
      exact ⟨rfl, rfl, rfl⟩
  · have hvalid := ne_invalid_of_isMarker ht hmark
    have hleft := map_leftChild_magnitudeOf ht hmark hpos
    have hright := map_rightChild_magnitudeOf ht hmark hpos
    obtain ⟨hpositive, hnegative⟩ := signedValue_of_map_leftChild hleft
    rw [exec_lchildI8 h hvalid, exec_rchildI8 h hvalid, exec_childrenI8 h hvalid, hleft, hright,
      map_children_eq_some_iff.mpr ⟨hleft, hright⟩]
    refine ⟨rfl, rfl, rfl, fun hlt => hpositive ?_, fun hge => hnegative (signOf_iff.mpr hge)⟩
    rw [Bool.eq_false_iff, ne_eq, signOf_iff]
    omega

end Sys2Proof.Machine
end

section
/-! The legal format pairs of the conversions (46_convert.md R166). The decoder answers ILLEGAL_FMT exactly
where the opcode is assigned and the format fields are not legal (30_encoding.md R68): the opcode is looked at
before the formats and the reserved bits after them (60_exceptions.md R179). -/

namespace Sys2Proof.Machine

section
variable {w : Command}

theorem decode_eq_illegalFmt_iff :
    decode w = .error .illegalFmt ↔ w.opAssigned = true ∧ w.formatLegal = false := by
  rw [opAssigned_eq]
  cases hop : operationOf (cmdOp w) with
  | none => simp [decode_of_no_operation hop]
  | some op =>
    have hlegal := formatLegal_iff ((toNat_cmdOp w).symm.trans (code_of_operationOf hop))
    cases hsel : selectInstr op (cmdFmt w) (cmdFmt2 w) with
    | none =>
      have hillegal : w.formatLegal = false := by simpa [hsel] using hlegal
      simp [decode_of_no_instr hop hsel, hillegal]
    | some i =>
      have hdecode : decode w ≠ .error .illegalFmt := by
        rw [decode_of_instr hop hsel]
        split <;> simp
      simp [hdecode, hlegal.mpr ⟨i, hsel⟩]

theorem opAssigned_of_conversion (hlo : 0x18 ≤ w.opField) (hhi : w.opField ≤ 0x1A) :
    w.opAssigned = true := by
  simp only [Command.opAssigned, assignedOpcodes, List.contains_eq_mem, decide_eq_true_eq,
    List.mem_cons, List.not_mem_nil, or_false]
  omega

/-- Two unsigned formats, the second wider for `WIDEN` and narrower for the other two. -/
theorem formatLegal_iff_of_conversion (hlo : 0x18 ≤ w.opField) (hhi : w.opField ≤ 0x1A) :
    w.formatLegal = true ↔
      w.fmtField ≤ 3 ∧ w.fmt2Field ≤ 3 ∧
        (w.opField = 0x18 → w.fmtField < w.fmt2Field) ∧
        (w.opField ≠ 0x18 → w.fmt2Field < w.fmtField) := by
  have hconv : w.isConversion = true := by simp [Command.isConversion, hlo, hhi]
  rw [Command.formatLegal, if_pos hconv]
  by_cases hwiden : w.opField = 0x18
  · simp [hwiden, Nat.lt_succ_iff, and_assoc]
  · simp [hwiden, Nat.lt_succ_iff, and_assoc]

end

/-- Settles O4: the table is eighteen values of the decoder, and a conversion opcode is assigned, so only the
format fields can make the command ILLEGAL_FMT. -/
theorem conversionPairsAsTabled : Obligations.ConversionPairsAsTabled := by
  unfold Obligations.ConversionPairsAsTabled
  refine ⟨by decide, by decide, by decide, fun w hlo hhi => ?_⟩
  rw [decode_eq_illegalFmt_iff, ← formatLegal_iff_of_conversion hlo hhi, Bool.not_eq_true,
    opAssigned_of_conversion hlo hhi, eq_self_iff_true, true_and]

end Sys2Proof.Machine
end

section
/-! The conversions (46_convert.md R165 to R170). Widening puts zeros below the pattern, so the marker and the
bits above it move up together and the path stays the same; narrowing takes those zeros away again. -/

namespace Sys2Proof.Machine

section
variable {ws wt t : Nat} {x y : BitVec ws}

/-! ### Widening, bit by bit and as a number (R167) -/

/-- The bits of the source stand `Wt − Ws` places higher, over zeros. -/
theorem getLsbD_widenPattern (h : ws ≤ wt) (x : BitVec ws) (i : Nat) :
    (widenPattern wt x).getLsbD i = (decide (wt - ws ≤ i) && x.getLsbD (i - (wt - ws))) := by
  have hwidth : x.getLsbD (i - (wt - ws)) = true → i - (wt - ws) < ws := BitVec.lt_of_getLsbD
  rw [widenPattern, BitVec.getLsbD_shiftLeft, BitVec.getLsbD_setWidth]
  grind

theorem toNat_widenPattern (h : ws ≤ wt) (x : BitVec ws) :
    (widenPattern wt x).toNat = x.toNat * 2 ^ (wt - ws) := by
  have hpow : 2 ^ wt = 2 ^ ws * 2 ^ (wt - ws) := by rw [← pow_add, Nat.add_sub_cancel' h]
  have hfits : x.toNat * 2 ^ (wt - ws) < 2 ^ wt := by
    rw [hpow]
    exact Nat.mul_lt_mul_of_pos_right x.isLt (Nat.two_pow_pos _)
  rw [widenPattern, BitVec.toNat_shiftLeft, BitVec.toNat_setWidth_of_le h, Nat.shiftLeft_eq,
    Nat.mod_eq_of_lt hfits]

theorem toNat_widenPattern_lt_iff (h : ws ≤ wt) :
    (widenPattern wt x).toNat < (widenPattern wt y).toNat ↔ x.toNat < y.toNat := by
  rw [toNat_widenPattern h, toNat_widenPattern h, Nat.mul_lt_mul_right (Nat.two_pow_pos _)]

/-! ### Widening keeps the node (R170 item 1) -/

theorem isMarker_widenPattern (h : ws ≤ wt) (hx : IsMarker x t) :
    IsMarker (widenPattern wt x) (t + (wt - ws)) := by
  obtain ⟨hmark, hlow⟩ := hx
  refine ⟨by simp [getLsbD_widenPattern h, hmark], fun j hj => ?_⟩
  rw [getLsbD_widenPattern h, Bool.and_eq_false_iff, decide_eq_false_iff_not]
  by_cases hzeros : wt - ws ≤ j
  · exact .inr (hlow _ (by omega))
  · exact .inl hzeros

theorem widenPattern_zero (ws wt : Nat) : widenPattern wt (0#ws) = 0#wt := by simp [widenPattern]

theorem widenPattern_ne_zero (h : ws ≤ wt) (hx : x ≠ 0#ws) : widenPattern wt x ≠ 0#wt :=
  ne_zero_of_marker (isMarker_widenPattern h (isMarker_tzcnt hx)).1

theorem tzcnt_widenPattern (h : ws ≤ wt) (hx : x ≠ 0#ws) :
    tzcnt (widenPattern wt x) = tzcnt x + (wt - ws) :=
  tzcnt_of_isMarker (isMarker_widenPattern h (isMarker_tzcnt hx))

/-- The marker is as far from the top as it was. -/
theorem depth_widenPattern (h : ws ≤ wt) (hx : x ≠ 0#ws) : depth (widenPattern wt x) = depth x := by
  rw [depth, depth, tzcnt_widenPattern h hx]
  omega

theorem pathBits_widenPattern (h : ws ≤ wt) (hx : x ≠ 0#ws) :
    pathBits (widenPattern wt x) = pathBits x := by
  rw [pathBits, pathBits, depth_widenPattern h hx]
  refine List.map_congr_left fun j hj => ?_
  have hj : j < ws - 1 - tzcnt x := List.mem_range.mp hj
  have hplace : wt - 1 - j - (wt - ws) = ws - 1 - j := by omega
  rw [getLsbD_widenPattern h, decide_eq_true (by omega), Bool.true_and, hplace]

theorem decodeFrac_widenPattern (h : ws ≤ wt) (x : BitVec ws) :
    decodeFrac (widenPattern wt x) = decodeFrac x := by
  by_cases hx : x = 0#ws
  · rw [hx, widenPattern_zero, decodeFrac_zero, decodeFrac_zero]
  · rw [decodeFrac_of_ne (widenPattern_ne_zero h hx), decodeFrac_of_ne hx, pathBits_widenPattern h hx]

/-! ### Narrowing (R168, R169) -/

theorem getLsbD_dropLow (x : BitVec ws) (i : Nat) :
    (dropLow wt x).getLsbD i = (decide (i < wt) && x.getLsbD (i + (ws - wt))) := by
  rw [dropLow, BitVec.getLsbD_setWidth, BitVec.getLsbD_ushiftRight, Nat.add_comm]

theorem lowClear_iff : lowClear wt x = true ↔ ∀ i < ws - wt, x.getLsbD i = false := by
  rw [lowClear, beq_iff_eq]
  constructor
  · intro hzero i hi
    simpa [hi] using congrArg (BitVec.getLsbD · i) hzero
  · intro hlow
    refine BitVec.eq_of_getLsbD_eq fun i hi => ?_
    simp [hi, hlow i hi]

theorem narrowLossyPattern_of_lowClear (hlow : lowClear wt x = true) :
    narrowLossyPattern wt x = dropLow wt x := if_pos hlow

/-! ### There and back (R170 item 2) -/

theorem lowClear_widenPattern (h : ws ≤ wt) (x : BitVec ws) :
    lowClear ws (widenPattern wt x) = true := by
  rw [lowClear_iff]
  intro i hi
  rw [getLsbD_widenPattern h, decide_eq_false (by omega), Bool.false_and]

theorem dropLow_widenPattern (h : ws ≤ wt) (x : BitVec ws) : dropLow ws (widenPattern wt x) = x := by
  refine BitVec.eq_of_getLsbD_eq fun i hi => ?_
  rw [getLsbD_dropLow, getLsbD_widenPattern h, decide_eq_true hi, decide_eq_true (Nat.le_add_left _ i),
    Nat.add_sub_cancel, Bool.true_and, Bool.true_and]

theorem widenPattern_dropLow (h : ws ≤ wt) {z : BitVec wt} (hlow : lowClear ws z = true) :
    widenPattern wt (dropLow ws z) = z := by
  refine BitVec.eq_of_getLsbD_eq fun i hi => ?_
  rw [getLsbD_widenPattern h, getLsbD_dropLow]
  by_cases hzeros : i < wt - ws
  · rw [lowClear_iff.mp hlow i hzeros, decide_eq_false (by omega), Bool.false_and]
  · have hsource : wt - ws ≤ i ∧ i - (wt - ws) < ws := by omega
    rw [decide_eq_true hsource.1, decide_eq_true hsource.2, Nat.sub_add_cancel hsource.1, Bool.true_and,
      Bool.true_and]

end

/-! ### Widening and `ENC_FLT` (R170 item 5) -/

/-- The document's example 1.618 (V-F6, V-F7 of 95_test_vectors.md): 13/8 at 8 bits is five steps down, and
144/89 at 16 bits ten. -/
theorem exists_depth_widenPattern_encFlt_lt :
    ∃ v, depth (widenPattern 16 (encFlt .exact 8 v)) < depth (encFlt .exact 16 v) := by
  have h8 : encFlt .exact 8 (magUnits 0x3FF9E353F7CED917) = 0xAC := by decide +kernel
  have h16 : encFlt .exact 16 (magUnits 0x3FF9E353F7CED917) = 0xAAA0 := by decide +kernel
  refine ⟨magUnits 0x3FF9E353F7CED917, ?_⟩
  rw [depth_widenPattern (by decide) (encFlt_ne_zero _ (by decide) _), h8, h16]
  decide

/-- Settles O57: the first four items hold already at equal widths, and the last has an example. -/
theorem conversionGuarantees : Obligations.ConversionGuarantees := by
  unfold Obligations.ConversionGuarantees
  refine ⟨fun ws wt x y z hlt => ?_, exists_depth_widenPattern_encFlt_lt⟩
  have h := hlt.le
  exact ⟨⟨decodeFrac_widenPattern h x, fun hx => ⟨pathBits_widenPattern h hx, depth_widenPattern h hx⟩⟩,
    ⟨lowClear_widenPattern h x, dropLow_widenPattern h x, widenPattern_dropLow h⟩,
    (toNat_widenPattern_lt_iff h).symm, narrowLossyPattern_of_lowClear⟩

end Sys2Proof.Machine
end

section
/-! The answer NONE (60_exceptions.md R178): which moves have no result, as arithmetic on the pattern, and
why an operation outside the Navigator and `INV_CHK` always has one of the other three outcomes. -/

namespace Sys2Proof.Machine

/-! ### The status of an answer (R175) -/

theorem status_response_eq_none_iff (ans : Answer) : ans.response.status = 0b01 ↔ ans = .none := by
  cases ans <;> simp

section
variable {s t : State}

theorem status_eq_none_iff_of_answer {ans : Answer} (h : s.answer ans = .next t) :
    t.rsp.status = 0b01 ↔ ans = .none := by
  rw [(s.answer_eq_next_iff t ans).mp h, State.withResponse_rsp, status_response_eq_none_iff]

theorem status_eq_none_iff_of_answer_okPattern? {w : Nat} {o : Option (BitVec w)}
    (h : s.answer (okPattern? o) = .next t) : t.rsp.status = 0b01 ↔ o = none := by
  rw [status_eq_none_iff_of_answer h]
  cases o <;> simp [okPattern?, okPattern]

theorem status_eq_none_iff_of_answer_okPair? {w : Nat} {o : Option (BitVec w × BitVec w)}
    (h : s.answer (okPair? o) = .next t) : t.rsp.status = 0b01 ↔ o = none := by
  rw [status_eq_none_iff_of_answer h]
  cases o <;> simp [okPair?]

/-- `INV_CHK` chooses between NONE and a result by a condition (R118, R147). -/
theorem status_eq_none_iff_of_ite {p : Prop} [Decidable p] {r0 r1 : Word}
    (h : Host.Outcome.next (if p then s.absent else s.ok r0 r1) =
      (.next t : Host.Outcome State Fault Refusal)) :
    t.rsp.status = 0b01 ↔ p := by
  cases h
  by_cases hp : p <;> simp [hp]

end

/-! ### Moves without a result -/

section
variable {w : Nat} {x : BitVec w}

theorem tzcnt_eq_top_iff (h : x ≠ 0#w) : tzcnt x = w - 1 ↔ x.toNat = 2 ^ (w - 1) := by
  have hlt := tzcnt_lt h
  rw [← eq_root_iff h, ← BitVec.toNat_inj, BitVec.toNat_twoPow_of_lt (by omega)]

theorem tzcnt_eq_zero_iff (h : x ≠ 0#w) : tzcnt x = 0 ↔ x.toNat % 2 = 1 := by
  rw [← isLeaf_iff_odd, isLeaf_iff]
  exact ⟨fun h0 => h0 ▸ isMarker_tzcnt h, tzcnt_of_isMarker⟩

/-- Only zero and the root have no parent (44_navigate.md R126). -/
theorem parent_eq_none_iff : parent x = none ↔ x = 0#w ∨ x.toNat = 2 ^ (w - 1) := by
  by_cases h : x = 0#w
  · simp [h]
  · simp [parent, h, tzcnt_eq_top_iff h]

/-- Only zero and the root have no sibling (44_navigate.md R130). -/
theorem sibling_eq_none_iff : sibling x = none ↔ x = 0#w ∨ x.toNat = 2 ^ (w - 1) := by
  by_cases h : x = 0#w
  · simp [h]
  · simp [sibling, h, tzcnt_eq_top_iff h]

/-- Only zero and a leaf have no left child (44_navigate.md R127). -/
theorem leftChild_eq_none_iff : leftChild x = none ↔ x = 0#w ∨ x.toNat % 2 = 1 := by
  by_cases h : x = 0#w
  · simp [h]
  · simp [leftChild, h, tzcnt_eq_zero_iff h]

/-- Only zero and a leaf have no right child (44_navigate.md R128). -/
theorem rightChild_eq_none_iff : rightChild x = none ↔ x = 0#w ∨ x.toNat % 2 = 1 := by
  by_cases h : x = 0#w
  · simp [h]
  · simp [rightChild, h, tzcnt_eq_zero_iff h]

/-- Only zero and a leaf have no children (44_navigate.md R129). -/
theorem children_eq_none_iff : children x = none ↔ x = 0#w ∨ x.toNat % 2 = 1 := by
  by_cases h : x = 0#w
  · simp [h, children_zero]
  · simp [children_eq, h, tzcnt_eq_zero_iff h]

end

/-! ### The magnitude of a signed pattern as a number (30_encoding.md R54) -/

section
variable {x : BitVec 8}

theorem toNat_magnitudeOf (x : BitVec 8) : (magnitudeOf x).toNat = x.toNat % 128 := by
  rw [magnitudeOf_eq_setWidth, BitVec.toNat_setWidth]

/-- Apart from the invalid pattern, zero alone has the magnitude zero (R55). -/
theorem magnitudeOf_eq_zero_iff (hx : x ≠ 0x80#8) : magnitudeOf x = 0#7 ↔ x = 0#8 := by
  rw [← BitVec.toNat_inj, toNat_magnitudeOf]
  bv_omega

/-- Zero and the two roots, by the magnitude. -/
theorem magnitudeOf_zero_or_root_iff (hx : x ≠ 0x80#8) :
    magnitudeOf x = 0#7 ∨ (magnitudeOf x).toNat = 2 ^ (7 - 1) ↔
      x = 0#8 ∨ x.toNat % 128 = 0x40 := by
  rw [magnitudeOf_eq_zero_iff hx, toNat_magnitudeOf]
  rfl

/-- Zero and the leaves, by the magnitude. -/
theorem magnitudeOf_zero_or_odd_iff (hx : x ≠ 0x80#8) :
    magnitudeOf x = 0#7 ∨ (magnitudeOf x).toNat % 2 = 1 ↔ x = 0#8 ∨ x.toNat % 2 = 1 := by
  rw [magnitudeOf_eq_zero_iff hx, toNat_magnitudeOf, Nat.mod_mod_of_dvd _ (by norm_num)]

end

/-! ### NONE in the unsigned formats -/

section
variable {f : UFmt} {x : BitVec f.width} {s t : State} {i : Instr}

theorem parentU_siblingU_none_iff (h : s.presents x) (hi : i = .parentU f ∨ i = .siblingU f)
    (ht : exec i s = .next t) : t.rsp.status = 0b01 ↔ x = 0#_ ∨ x.toNat = 2 ^ (f.width - 1) := by
  rcases hi with rfl | rfl
  · rw [exec_parentU h] at ht
    exact (status_eq_none_iff_of_answer_okPattern? ht).trans parent_eq_none_iff
  · rw [exec_siblingU h] at ht
    exact (status_eq_none_iff_of_answer_okPattern? ht).trans sibling_eq_none_iff

theorem childrenU_none_iff (h : s.presents x)
    (hi : i = .lchildU f ∨ i = .rchildU f ∨ i = .childrenU f) (ht : exec i s = .next t) :
    t.rsp.status = 0b01 ↔ x = 0#_ ∨ x.toNat % 2 = 1 := by
  rcases hi with rfl | rfl | rfl
  · rw [exec_lchildU h] at ht
    exact (status_eq_none_iff_of_answer_okPattern? ht).trans leftChild_eq_none_iff
  · rw [exec_rchildU h] at ht
    exact (status_eq_none_iff_of_answer_okPattern? ht).trans rightChild_eq_none_iff
  · rw [exec_childrenU h] at ht
    exact (status_eq_none_iff_of_answer_okPair? ht).trans children_eq_none_iff

theorem invChkU_none_iff (h : s.presents x) (ht : exec (.invChkU f) s = .next t) :
    t.rsp.status = 0b01 ↔ x = 0#_ := by
  rw [exec_invChkU h] at ht
  exact status_eq_none_iff_of_ite ht

end

/-! ### NONE in `I8` -/

section
variable {x : BitVec 8} {s t : State} {i : Instr}

theorem parentI8_siblingI8_none_iff (h : s.presents x) (hx : x ≠ 0x80#8)
    (hi : i = .parentI8 ∨ i = .siblingI8) (ht : exec i s = .next t) :
    t.rsp.status = 0b01 ↔ x = 0#_ ∨ x.toNat % 128 = 0x40 := by
  rw [← magnitudeOf_zero_or_root_iff hx]
  rcases hi with rfl | rfl
  · rw [exec_parentI8 h hx] at ht
    rw [status_eq_none_iff_of_answer_okPattern? ht, Option.map_eq_none_iff, parent_eq_none_iff]
  · rw [exec_siblingI8 h hx] at ht
    rw [status_eq_none_iff_of_answer_okPattern? ht, Option.map_eq_none_iff, sibling_eq_none_iff]

theorem childrenI8_none_iff (h : s.presents x) (hx : x ≠ 0x80#8)
    (hi : i = .lchildI8 ∨ i = .rchildI8 ∨ i = .childrenI8) (ht : exec i s = .next t) :
    t.rsp.status = 0b01 ↔ x = 0#_ ∨ x.toNat % 2 = 1 := by
  rw [← magnitudeOf_zero_or_odd_iff hx]
  rcases hi with rfl | rfl | rfl
  · rw [exec_lchildI8 h hx] at ht
    rw [status_eq_none_iff_of_answer_okPattern? ht, Option.map_eq_none_iff, leftChild_eq_none_iff]
  · rw [exec_rchildI8 h hx] at ht
    rw [status_eq_none_iff_of_answer_okPattern? ht, Option.map_eq_none_iff, rightChild_eq_none_iff]
  · rw [exec_childrenI8 h hx] at ht
    rw [status_eq_none_iff_of_answer_okPair? ht, Option.map_eq_none_iff, children_eq_none_iff]

theorem invChkI8_none_iff (h : s.presents x) (hx : x ≠ 0x80#8) (ht : exec .invChkI8 s = .next t) :
    t.rsp.status = 0b01 ↔ x = 0#_ := by
  rw [exec_invChkI8 h hx] at ht
  exact (status_eq_none_iff_of_ite ht).trans (magnitudeOf_eq_zero_iff hx)

end

/-! ### Operations without NONE

A failed operand check is a FAULT, so an operand form answers NONE only where the operation itself does. -/

section
variable {w : Nat} {r : Request}

theorem elim_fault_ne_none {k : Answer} (hk : k ≠ .none) (c : Option FaultCause) :
    c.elim k .fault ≠ .none := by
  cases c with
  | none => exact hk
  | some c => exact nofun

theorem withPattern_ne_none {k : BitVec w → Answer} (hk : ∀ x, k x ≠ .none) :
    withPattern w r k ≠ .none :=
  withPattern_eq_elim w r k ▸ elim_fault_ne_none (hk _) _

theorem withPatterns_ne_none {k : BitVec w → BitVec w → Answer} (hk : ∀ x y, k x y ≠ .none) :
    withPatterns w r k ≠ .none :=
  withPatterns_eq_elim w r k ▸ elim_fault_ne_none (hk _ _) _

theorem withSigned_ne_none {k : Bool → BitVec 7 → Answer} (hk : ∀ sg m, k sg m ≠ .none) :
    withSigned r k ≠ .none :=
  withSigned_eq_elim r k ▸ elim_fault_ne_none (hk _ _) _

theorem withSignedPair_ne_none {k : BitVec 8 → BitVec 8 → Answer} (hk : ∀ x y, k x y ≠ .none) :
    withSignedPair r k ≠ .none :=
  withSignedPair_eq_elim r k ▸ elim_fault_ne_none (hk _ _) _

theorem withUint64_ne_none {k : Nat → Answer} (hk : ∀ n, k n ≠ .none) : withUint64 r k ≠ .none :=
  withUint64_eq_elim r k ▸ elim_fault_ne_none (hk _) _

theorem withSint8_ne_none {k : Int → Answer} (hk : ∀ n, k n ≠ .none) : withSint8 r k ≠ .none :=
  withSint8_eq_elim r k ▸ elim_fault_ne_none (hk _) _

theorem withFloat_ne_none {k : Word → Answer} (hk : ∀ a, k a ≠ .none) : withFloat r k ≠ .none :=
  withFloat_eq_elim r k ▸ elim_fault_ne_none (hk _) _

theorem widenAnswer_ne_none (fs ft : UFmt) (r : Request) : widenAnswer fs ft r ≠ .none :=
  withPattern_ne_none fun _ => nofun

theorem narrowAnswer_ne_none (fs ft : UFmt) (r : Request) : narrowAnswer fs ft r ≠ .none :=
  withPattern_ne_none fun _ => by split <;> exact nofun

theorem narrowLossyAnswer_ne_none (fs ft : UFmt) (r : Request) : narrowLossyAnswer fs ft r ≠ .none :=
  withPattern_ne_none fun _ => nofun

end

/-- Every other operation ends in OK, a domain error or a FAULT. -/
theorem exists_answer_ne_none {i : Instr} (hi : mayBeAbsent i = false) (s : State) :
    ∃ ans, exec i s = s.answer ans ∧ ans ≠ .none := by
  cases i with
  | decU _ | isleafU _ | invUnchkU _ => exact ⟨_, rfl, withPattern_ne_none fun _ => nofun⟩
  | decI8 | isleafI8 | invUnchkI8 => exact ⟨_, rfl, withSigned_ne_none fun _ _ => nofun⟩
  | cmpU _ => exact ⟨_, rfl, withPatterns_ne_none fun _ _ => nofun⟩
  | cmpI8 => exact ⟨_, rfl, withSignedPair_ne_none fun _ _ => nofun⟩
  | invU _ => exact ⟨_, rfl, withPattern_ne_none fun _ => by split <;> exact nofun⟩
  | invI8 => exact ⟨_, rfl, withSigned_ne_none fun _ _ => by split <;> exact nofun⟩
  | encIntU _ => exact ⟨_, rfl, withUint64_ne_none fun _ => by split <;> exact nofun⟩
  | encIntI8 => exact ⟨_, rfl, withSint8_ne_none fun _ => by split <;> exact nofun⟩
  | encFltU _ | encFltI8 =>
    refine ⟨_, rfl, withFloat_ne_none fun _ => ?_⟩
    repeat' split
    all_goals exact nofun
  | widenU8U16 | widenU8U32 | widenU8U64 | widenU16U32 | widenU16U64 | widenU32U64 =>
    exact ⟨_, rfl, widenAnswer_ne_none _ _ _⟩
  | narrowU16U8 | narrowU32U8 | narrowU32U16 | narrowU64U8 | narrowU64U16 | narrowU64U32 =>
    exact ⟨_, rfl, narrowAnswer_ne_none _ _ _⟩
  | narrowLossyU16U8 | narrowLossyU32U8 | narrowLossyU32U16 | narrowLossyU64U8 | narrowLossyU64U16
  | narrowLossyU64U32 => exact ⟨_, rfl, narrowLossyAnswer_ne_none _ _ _⟩
  | parentU _ | parentI8 | siblingU _ | siblingI8 | lchildU _ | lchildI8 | rchildU _ | rchildI8
  | childrenU _ | childrenI8 | invChkU _ | invChkI8 => cases hi

theorem status_ne_none_of_not_mayBeAbsent {i : Instr} {s t : State} (hi : mayBeAbsent i = false)
    (ht : exec i s = .next t) : t.rsp.status ≠ 0b01 := by
  obtain ⟨ans, hexec, hne⟩ := exists_answer_ne_none hi s
  rw [hexec] at ht
  exact fun hstatus => hne ((status_eq_none_iff_of_answer ht).mp hstatus)

/-- Settles O15: the moves without a result and `INV_CHK`, unsigned and signed, and no other operation. -/
theorem noneCasesAreComplete : Obligations.NoneCasesAreComplete := by
  unfold Obligations.NoneCasesAreComplete
  refine ⟨fun f x s t h => ⟨?_, ?_, ?_⟩, fun x s t h hx => ⟨?_, ?_, ?_⟩, ?_⟩
  · exact fun i => parentU_siblingU_none_iff h
  · exact fun i => childrenU_none_iff h
  · exact invChkU_none_iff h
  · exact fun i => parentI8_siblingI8_none_iff h hx
  · exact fun i => childrenI8_none_iff h hx
  · exact invChkI8_none_iff h hx
  · exact fun i s t => status_ne_none_of_not_mayBeAbsent

end Sys2Proof.Machine
end

section
/-! The command word, decoded and encoded (30_encoding.md R60, R62, R66): what the decoder accepts, and that
encoding puts back the fields it has read. -/

namespace Sys2Proof.Machine

/-! ### What the decoder accepts -/

/-- A decoded command selects an operation, that operation in its formats, and nothing in the unused bits. -/
theorem decode_eq_ok_iff {w : Command} {i : Instr} :
    decode w = .ok i ↔ ∃ op, operationOf (cmdOp w) = some op ∧
      selectInstr op (cmdFmt w) (cmdFmt2 w) = some i ∧ reservedZero op w = true := by
  cases hop : operationOf (cmdOp w) with
  | none => simp [decode_of_no_operation hop]
  | some op =>
    cases hsel : selectInstr op (cmdFmt w) (cmdFmt2 w) with
    | none => simp [decode_of_no_instr hop hsel, hsel]
    | some j =>
      rw [decode_of_instr hop hsel]
      cases hrsv : reservedZero op w <;> simp [hsel, hrsv]

/-- Settles O2: the three conditions on the fields are the three conditions the decoder checks. -/
theorem decoderAcceptsWellFormedCommands : Obligations.DecoderAcceptsWellFormedCommands := by
  unfold Obligations.DecoderAcceptsWellFormedCommands
  intro w
  simp only [decode_eq_ok_iff, Command.wellFormed, Bool.and_eq_true, opAssigned_eq]
  cases hop : operationOf (cmdOp w) with
  | none => simp
  | some op =>
    have hcode := (toNat_cmdOp w).symm.trans (code_of_operationOf hop)
    simp [formatLegal_iff hcode, reservedZero_eq hcode]

/-! ### The encoder packs the fields the decoder reads -/

theorem packCommand_fields (w : Command) :
    packCommand (cmdRsv w) (cmdFmt2 w) (cmdFmt w) (cmdOp w) = w := by
  refine BitVec.eq_of_getLsbD_eq fun i hi => ?_
  simp only [packCommand, cmdRsv, cmdFmt2, cmdFmt, cmdOp, BitVec.getLsbD_append,
    BitVec.getLsbD_extractLsb']
  grind

/-- An operation that is no conversion is the unsigned or the signed row of its opcode. -/
theorem encode_of_row {op : Operation} {f : Format} {f2 : Option Format} {i : Instr}
    (hconv : op.converts = false) (h : instrOf op f f2 = some i) : encode i = encodeOne op f := by
  cases op with
  | widen | narrow | narrowLossy => cases hconv
  | _ => cases f <;> cases h <;> rfl

theorem encode_of_widenOf {fs ft : UFmt} {i : Instr} (h : widenOf fs ft = some i) :
    encode i = encodeConversion .widen fs ft := by
  unfold widenOf at h
  split at h <;> cases h <;> rfl

theorem encode_of_narrowOf {fs ft : UFmt} {i : Instr} (h : narrowOf fs ft = some i) :
    encode i = encodeConversion .narrow fs ft := by
  unfold narrowOf at h
  split at h <;> cases h <;> rfl

theorem encode_of_narrowLossyOf {fs ft : UFmt} {i : Instr} (h : narrowLossyOf fs ft = some i) :
    encode i = encodeConversion .narrowLossy fs ft := by
  unfold narrowLossyOf at h
  split at h <;> cases h <;> rfl

/-- A conversion is the pair of unsigned formats it stands for in its table (46_convert.md R166). -/
theorem encode_of_conversion {op : Operation} {f : Format} {f2 : Option Format} {i : Instr}
    (hconv : op.converts = true) (h : instrOf op f f2 = some i) :
    ∃ fs ft, f = .unsigned fs ∧ f2 = some (.unsigned ft) ∧ encode i = encodeConversion op fs ft := by
  cases op with
  | widen =>
    obtain ⟨fs, ft, hf, hf2, hrow⟩ := (convertOf_eq_some_iff _ _ _ _).mp h
    exact ⟨fs, ft, hf, hf2, encode_of_widenOf hrow⟩
  | narrow =>
    obtain ⟨fs, ft, hf, hf2, hrow⟩ := (convertOf_eq_some_iff _ _ _ _).mp h
    exact ⟨fs, ft, hf, hf2, encode_of_narrowOf hrow⟩
  | narrowLossy =>
    obtain ⟨fs, ft, hf, hf2, hrow⟩ := (convertOf_eq_some_iff _ _ _ _).mp h
    exact ⟨fs, ft, hf, hf2, encode_of_narrowLossyOf hrow⟩
  | _ => cases hconv

/-! ### Both directions -/

theorem reservedZero_iff (op : Operation) (w : Command) :
    reservedZero op w = true ↔ cmdRsv w = 0 ∧ (op.converts = false → cmdFmt2 w = 0) := by
  rw [reservedZero]
  cases op.converts <;> simp

/-- Every field of a decoded command is the code of what it has selected, or zero. -/
theorem encode_of_decode {w : Command} {i : Instr} (h : decode w = .ok i) : encode i = w := by
  obtain ⟨op, hop, hsel, hrsv⟩ := decode_eq_ok_iff.mp h
  obtain ⟨f, hf, hinstr⟩ := selectInstr_eq_some_iff.mp hsel
  obtain ⟨hrsv, hfmt2⟩ := (reservedZero_iff op w).mp hrsv
  have hopCode : cmdOp w = op.code := BitVec.eq_of_toNat_eq (code_of_operationOf hop)
  have hfmt : cmdFmt w = f.code := BitVec.eq_of_toNat_eq (code_of_formatOf hf)
  cases hconv : op.converts with
  | false =>
    calc encode i
        = packCommand 0 0 f.code op.code := encode_of_row hconv hinstr
      _ = packCommand (cmdRsv w) (cmdFmt2 w) (cmdFmt w) (cmdOp w) := by
          rw [hrsv, hfmt2 hconv, hfmt, hopCode]
      _ = w := packCommand_fields w
  | true =>
    obtain ⟨fs, ft, rfl, hft, hencode⟩ := encode_of_conversion hconv hinstr
    have hfmt2 : cmdFmt2 w = ft.code := BitVec.eq_of_toNat_eq (code_of_formatOf hft)
    calc encode i
        = packCommand 0 ft.code fs.code op.code := hencode
      _ = packCommand (cmdRsv w) (cmdFmt2 w) (cmdFmt w) (cmdOp w) := by
          rw [hrsv, hfmt2, hfmt, hopCode]; rfl
      _ = w := packCommand_fields w

/-- The table of the instructions, read forwards: one word for each instruction and format. -/
theorem decode_encode (i : Instr) : decode (encode i) = .ok i := by
  cases i with
  | decU f | encIntU f | encFltU f | cmpU f | parentU f | lchildU f | rchildU f | childrenU f
  | siblingU f | isleafU f | invU f | invChkU f | invUnchkU f => cases f <;> rfl
  | _ => rfl

/-- Settles O1: a decoded word is packed again from its own fields, and the words of the table decode. -/
theorem decodeIsInverseOfEncode : Obligations.DecodeIsInverseOfEncode := by
  unfold Obligations.DecodeIsInverseOfEncode
  intro w i
  constructor
  · exact encode_of_decode
  · rintro rfl
    exact decode_encode i

/-- Settles O3: each of the ten words is the word of its operation. -/
theorem specWordsDecode : Obligations.SpecWordsDecode := by
  unfold Obligations.SpecWordsDecode
  simp only [decodeIsInverseOfEncode _ _]
  decide

end Sys2Proof.Machine
end

section
/-! What a step is, in the terms of its parts: decode, run the instruction, show the response. The response
that stood there before is overwritten unread, so an earlier request leaves no trace (20_memory.md R45). -/

namespace Sys2Proof.Machine

/-- Settles O5: the two branches of the step. -/
theorem stepRunsDecodedInstruction : Obligations.StepRunsDecodedInstruction := by
  unfold Obligations.StepRunsDecodedInstruction
  refine fun s => ⟨fun i hi => step_of_decode_ok hi, fun c hc => ?_⟩
  rw [step_of_decode_error hc, refuse_eq_faulted]

/-- Settles O10: the response is `instrResponse`, by the equation of every instruction. -/
theorem everyInstructionAnswersAndKeepsRequest : Obligations.EveryInstructionAnswersAndKeepsRequest :=
  fun i s => ⟨instrResponse i s.req.a s.req.b, exec_eq_next i s⟩

theorem eq_of_exec_eq_next {i : Instr} {s t : State} (h : exec i s = .next t) :
    t = s.withResponse (instrResponse i s.req.a s.req.b) := by
  rw [exec_eq_next] at h
  cases h
  rfl

theorem eq_of_step_eq_next {s t : State} (h : step s = .next t) :
    t = s.withResponse (requestResponse s.req) := by
  rw [step_eq_next] at h
  cases h
  rfl

/-- Settles O11: `instrResponse` is a function of the operands alone. -/
theorem execIgnoresEarlierResponse : Obligations.ExecIgnoresEarlierResponse := by
  unfold Obligations.ExecIgnoresEarlierResponse
  intro i s s' t t' ha hb ht ht'
  rw [eq_of_exec_eq_next ht, eq_of_exec_eq_next ht', State.withResponse_rsp, State.withResponse_rsp,
    State.withResponse_req, ha, hb]
  exact ⟨rfl, rfl⟩

/-- Settles O12: both times the response is `requestResponse r'`. -/
theorem earlierRequestIsForgotten : Obligations.EarlierRequestIsForgotten := by
  unfold Obligations.EarlierRequestIsForgotten
  intro s t u v r r' _ hu hv
  calc u.rsp
      = requestResponse r' := by rw [eq_of_step_eq_next hu, State.withResponse_rsp, State.present_req]
    _ = v.rsp := by rw [eq_of_step_eq_next hv, State.withResponse_rsp, State.present_req]

end Sys2Proof.Machine
end

section
/-! The guarantees of the decoder (40_decode.md R83, R84) and `DEC` on the unsigned formats (R80). -/

namespace Sys2Proof.Machine

/-! ### The value and the order of a decoded pattern (R84 items 1 and 4) -/

/-- Settles O18: the bounds of the decoder are the nearest ancestors. -/
theorem decodeIsTreeValue : Obligations.DecodeIsTreeValue := by
  unfold Obligations.DecodeIsTreeValue
  refine fun w x => ⟨fun hx => ?_, (patternValue_eq_toRat_decodeFrac x).symm⟩
  rw [decodeFrac_of_ne hx, patternNode, (foldl_child_root _).1]

/-- Settles O21: the order of patterns is the order of the fractions, so equal fractions are of equal
patterns. -/
theorem decodeInjective : Obligations.DecodeInjective := by
  unfold Obligations.DecodeInjective
  intro w x y h
  exact (patternOrderIsValueOrder w x y).2.mpr (by rw [h])

/-! ### Width (R83) -/

theorem fib_succ_lt_two_pow {w : Nat} (hw : 0 < w) : Nat.fib (w + 1) < 2 ^ w := by
  induction w, hw using Nat.le_induction with
  | base => decide
  | succ w hw ih =>
    calc Nat.fib (w + 2)
        = Nat.fib w + Nat.fib (w + 1) := Nat.fib_add_two
      _ ≤ Nat.fib (w + 1) + Nat.fib (w + 1) := Nat.add_le_add_right Nat.fib_le_fib_succ _
      _ < 2 ^ w + 2 ^ w := Nat.add_lt_add ih ih
      _ = 2 ^ (w + 1) := by rw [pow_succ, Nat.mul_two]

/-- A path inside a tree of depth `W - 1` stays within F(W + 1). -/
theorem boundsAlong_mid_atMost_fib {w : Nat} {path : List Bool} (h : path.length < w) :
    (boundsAlong path).mid.AtMost (Nat.fib (w + 1)) :=
  (boundsAlong_atMost_fib path).2.1.mono (Nat.fib_mono (by omega))

/-- Settles O19: F(W + 1) bounds the result and every node on the way, and is below 2^W. -/
theorem decodeFitsWidth : Obligations.DecodeFitsWidth := by
  unfold Obligations.DecodeFitsWidth
  intro w x hw
  obtain ⟨hnum, hden⟩ := decodeFrac_atMost_fib x
  have hfib := fib_succ_lt_two_pow hw
  refine ⟨hnum, hden, hfib, fun k => ?_⟩
  have hlength : ((pathBits x).take k).length < w := by
    have hdepth := depth_le x
    rw [List.length_take, length_pathBits]
    omega
  obtain ⟨hnum, hden⟩ := boundsAlong_mid_atMost_fib hlength
  exact ⟨hnum.trans_lt hfib, hden.trans_lt hfib⟩

/-! ### Lowest terms (R84 item 2) -/

/-- Neighbours in the tree: the determinant of the two fractions is 1. -/
def Frac.Adjacent (p q : Frac) : Prop := q.num * p.den = p.num * q.den + 1

theorem Frac.Adjacent.mediant_right {p q : Frac} (h : p.Adjacent q) : p.Adjacent (mediant p q) := by
  simp only [Frac.Adjacent, mediant_num, mediant_den, add_mul, mul_add] at *
  omega

theorem Frac.Adjacent.mediant_left {p q : Frac} (h : p.Adjacent q) : (mediant p q).Adjacent q := by
  simp only [Frac.Adjacent, mediant_num, mediant_den, add_mul, mul_add] at *
  omega

theorem Frac.Adjacent.coprime {p q : Frac} (h : p.Adjacent q) : Nat.Coprime q.num q.den := by
  refine Nat.isCoprime_iff_coprime.mp ⟨p.den, -p.num, ?_⟩
  have hcast : (q.num * p.den : ℤ) = p.num * q.den + 1 := by exact_mod_cast h
  linarith

/-- Every node is a neighbour of both its bounds, because it is their mediant. -/
theorem adjacent_boundsAlong (path : List Bool) :
    (boundsAlong path).lower.Adjacent (boundsAlong path).mid ∧
      (boundsAlong path).mid.Adjacent (boundsAlong path).upper := by
  induction path using List.reverseRecOn with
  | nil => exact ⟨rfl, rfl⟩
  | append_singleton path bit ih =>
    obtain ⟨hlower, hupper⟩ := ih
    rw [boundsAlong_concat]
    cases bit with
    | false => exact ⟨hlower.mediant_right, hlower.mediant_left⟩
    | true => exact ⟨hupper.mediant_right, hupper.mediant_left⟩

/-- Settles O20: zero is 0/1, and every other pattern is a neighbour of its lower bound. -/
theorem decodeLowestTerms : Obligations.DecodeLowestTerms := by
  unfold Obligations.DecodeLowestTerms
  refine fun w x => ⟨?_, den_decodeFrac_pos x⟩
  by_cases hx : x = 0#w
  · rw [hx, decodeFrac_zero]
    exact Nat.coprime_one_right 0
  · rw [decodeFrac_of_ne hx]
    exact (adjacent_boundsAlong _).1.coprime

/-! ### `DEC.U*` -/

theorem exec_decU {f : UFmt} {x : BitVec f.width} {s : State} (h : s.presents x) :
    exec (.decU f) s =
      .next (s.ok (BitVec.ofNat 64 (decodeFrac x).num) (BitVec.ofNat 64 (decodeFrac x).den)) :=
  answer_withPattern_of_presents h _

theorem decodeFrac_lt_two_pow {w : Nat} (hw : 0 < w) (x : BitVec w) :
    (decodeFrac x).num < 2 ^ w ∧ (decodeFrac x).den < 2 ^ w := by
  obtain ⟨hnum, hden⟩ := decodeFrac_atMost_fib x
  have hfib := fib_succ_lt_two_pow hw
  exact ⟨hnum.trans_lt hfib, hden.trans_lt hfib⟩

theorem UFmt.width_pos (f : UFmt) : 0 < f.width := by cases f <;> decide

/-- A number of the width of a format is held by a 64-bit result. -/
theorem toNat_ofNat_of_lt_width {f : UFmt} {n : Nat} (h : n < 2 ^ f.width) :
    (BitVec.ofNat 64 n).toNat = n := by
  have hpow : 2 ^ f.width ≤ 2 ^ 64 := Nat.pow_le_pow_right two_pos (UFmt.width_le f)
  rw [BitVec.toNat_ofNat, Nat.mod_eq_of_lt (h.trans_le hpow)]

/-- Settles O16: both numbers fit in the width of the format. -/
theorem decUnsignedAnswers : Obligations.DecUnsignedAnswers := by
  unfold Obligations.DecUnsignedAnswers
  intro f x s h
  obtain ⟨hnum, hden⟩ := decodeFrac_lt_two_pow (UFmt.width_pos f) x
  exact ⟨_, _, exec_decU h, toNat_ofNat_of_lt_width hnum, toNat_ofNat_of_lt_width hden⟩

end Sys2Proof.Machine
end

section
/-! `ENC_INT` on the unsigned formats (41_encode.md R90, R91), and the named constants it makes (00_scope.md
R9, 30_encoding.md R71). -/

namespace Sys2Proof.Machine

section
variable {f : UFmt} {s : State}

/-- Up to the width of the format `ENC_INT` answers the pattern of the integer. -/
theorem exec_encIntU_of_le_width (hb : s.req.b = 0#64) (h : s.req.a.toNat ≤ f.width) :
    exec (.encIntU f) s = .next (s.ok ((encInt f.width s.req.a.toNat).setWidth 64) 0) := by
  rw [exec_encIntU, execEncIntU, withUint64_clean _ hb, if_neg (by omega)]
  rfl

/-- Settles O22: exactly the top `n` bits of `enc_int_W(n)` are set. -/
theorem encIntUnsigned : Obligations.EncIntUnsigned := by
  unfold Obligations.EncIntUnsigned
  refine fun f s hb => ⟨exec_encIntU_of_width_lt hb, fun h => ?_⟩
  refine ⟨_, exec_encIntU_of_le_width hb h, fun i hi => ?_⟩
  simp only [getLsbD_encInt, hi, and_true]

end

/-! ### The named constants -/

section
variable {f : UFmt} {n : Nat} {s : State}

theorem exec_encIntU_of_presents (hn : n ≤ f.width) (h : s.presents (BitVec.ofNat 64 n)) :
    exec (.encIntU f) s = .next (s.ok ((encInt f.width n).setWidth 64) 0) := by
  have hn64 : n < 2 ^ 64 := (hn.trans (UFmt.width_le f)).trans_lt (by norm_num)
  have ha : s.req.a.toNat = n := by
    rw [h.1, BitVec.setWidth_eq, BitVec.toNat_ofNat, Nat.mod_eq_of_lt hn64]
  rw [exec_encIntU_of_le_width h.2 (ha.trans_le hn), ha]

theorem allOnes_ne_zero {w : Nat} (hw : 0 < w) : BitVec.allOnes w ≠ 0#w :=
  ne_zero_of_marker (t := 0) (by simp [hw])

/-- The reciprocal of `W/1` is `1/W` (R9). -/
theorem invert_allOnes {w : Nat} (hw : 0 < w) : invert (BitVec.allOnes w) = 1#w := by
  apply decodeInjective
  rw [decodeFrac_invert (allOnes_ne_zero hw), decodeFrac_allOnes hw, decodeFrac_one hw]
  rfl

/-! The constants are 64-bit literals; as patterns of their format they are the ones R9 describes. -/

theorem presents_allOnes (h : s.presents (maxPattern (.unsigned f))) :
    s.presents (BitVec.allOnes f.width) :=
  ⟨h.1.trans (by cases f <;> rfl), h.2⟩

theorem presents_one (h : s.presents (minPattern (.unsigned f))) : s.presents (1#f.width) :=
  ⟨h.1.trans (by cases f <;> rfl), h.2⟩

end

/-- The constants of an unsigned format. -/
theorem namedConstants_unsigned (f : UFmt) (s : State) :
    (s.presents 0#64 → exec (.encIntU f) s = .next (s.ok (zeroPattern (.unsigned f)) 0)) ∧
    (s.presents 1#64 → exec (.encIntU f) s = .next (s.ok (onePattern (.unsigned f)) 0)) ∧
    (s.presents (BitVec.ofNat 64 f.width) →
      exec (.encIntU f) s = .next (s.ok (maxPattern (.unsigned f)) 0)) ∧
    (s.presents (maxPattern (.unsigned f)) →
      exec (.invU f) s = .next (s.ok (minPattern (.unsigned f)) 0) ∧
      exec (.decU f) s = .next (s.ok (BitVec.ofNat 64 f.width) 1)) ∧
    (s.presents (minPattern (.unsigned f)) →
      exec (.decU f) s = .next (s.ok 1 (BitVec.ofNat 64 f.width))) := by
  have hw := UFmt.width_pos f
  refine ⟨fun h => ?_, fun h => ?_, fun h => ?_, fun h => ⟨?_, ?_⟩, fun h => ?_⟩
  · rw [exec_encIntU_of_presents (Nat.zero_le _) h]
    cases f <;> rfl
  · rw [exec_encIntU_of_presents hw h]
    cases f <;> rfl
  · rw [exec_encIntU_of_presents le_rfl h]
    cases f <;> rfl
  · rw [exec_invU (presents_allOnes h), if_neg (allOnes_ne_zero hw), invert_allOnes hw]
    cases f <;> rfl
  · rw [exec_decU (presents_allOnes h), decodeFrac_allOnes hw]
    rfl
  · rw [exec_decU (presents_one h), decodeFrac_one hw]
    rfl

/-- The constants of `I8`, whose tree has the width 7. -/
theorem namedConstants_i8 (s : State) :
    (s.presents 0#64 → exec .encIntI8 s = .next (s.ok (zeroPattern .i8) 0)) ∧
    (s.presents 1#64 → exec .encIntI8 s = .next (s.ok (onePattern .i8) 0)) ∧
    (s.presents 7#64 → exec .encIntI8 s = .next (s.ok (maxPattern .i8) 0)) ∧
    (s.presents (maxPattern .i8) → exec .invI8 s = .next (s.ok (minPattern .i8) 0)) :=
  ⟨fun h => exec_encIntI8 (n := 0) (by norm_num) (by norm_num) h,
    fun h => exec_encIntI8 (n := 1) (by norm_num) (by norm_num) h,
    fun h => exec_encIntI8 (n := 7) (by norm_num) (by norm_num) h,
    fun h => exec_invI8 (x := 0x7F#8) h (by decide)⟩

/-- Settles O58: the unsigned formats and `I8`. -/
theorem namedConstantsAsEncoded : Obligations.NamedConstantsAsEncoded :=
  ⟨namedConstants_unsigned, namedConstants_i8⟩

end Sys2Proof.Machine
end

section
/-! The outcomes an instruction can have once its operands have passed the checks (30_encoding.md R64,
60_exceptions.md R176 to R178). Every step keeps the response sound for its request, a request that passes
the checks faults for `INV` of zero alone, and no `I8` pattern of a result is `0x80`. -/

namespace Sys2Proof.Machine

/-! ### Possible answers -/

/-- The answers the instruction `i` can give where its operands, with `a` on the first port, are
accepted. -/
def Answer.Possible (i : Instr) (a : Word) : Answer → Prop
  | .ok r0 r1 => fitsForm { status := statusCode .ok, r0 := r0, r1 := r1 } (resultForm i)
  | .none => mayBeAbsent i = true
  | .domainError c => (domainCode c).setWidth 64 ∈ domainCauses i
  | .fault c => c = .invertZero ∧ (∃ f, i = .invU f) ∧ a = 0#64

section
variable {i : Instr} {a : Word} {w : Nat}

theorem possible_ok_iff {r0 r1 : Word} {form : ResultForm} (h : resultForm i = form) :
    (Answer.ok r0 r1).Possible i a ↔
      fitsForm { status := statusCode .ok, r0 := r0, r1 := r1 } form := by
  subst h
  rfl

/-! ### Patterns -/

theorem toNat_setWidth_lt (x : BitVec w) : (x.setWidth 64).toNat < 2 ^ w := by
  rw [BitVec.toNat_setWidth]
  exact (Nat.mod_le _ _).trans_lt x.isLt

theorem possible_okPattern (h : resultForm i = .pat w) (x : BitVec w) : (okPattern x).Possible i a :=
  (possible_ok_iff h).mpr ⟨toNat_setWidth_lt x, rfl⟩

theorem possible_okPattern? (h : resultForm i = .pat w) (habsent : mayBeAbsent i = true)
    (o : Option (BitVec w)) : (okPattern? o).Possible i a := by
  cases o with
  | none => exact habsent
  | some x => exact possible_okPattern h x

theorem possible_okPair? (h : resultForm i = .patPair w) (habsent : mayBeAbsent i = true)
    (o : Option (BitVec w × BitVec w)) : (okPair? o).Possible i a := by
  cases o with
  | none => exact habsent
  | some p => exact (possible_ok_iff h).mpr ⟨toNat_setWidth_lt p.1, toNat_setWidth_lt p.2⟩

/-! ### Signed patterns (45_signed.md R155) -/

theorem validSigned_setWidth {x : BitVec 8} (hx : x ≠ 0x80#8) : validSigned (x.setWidth 64) := by
  have hlt : (x.setWidth 64).toNat < 2 ^ 8 := toNat_setWidth_lt x
  refine ⟨hlt, (setWidth_ne_invalid_iff hlt).mp ?_⟩
  rwa [setWidth_setWidth_self (by norm_num)]

/-- The invalid pattern has the sign and nothing else (R55). -/
theorem packSigned_ne_invalid {sg : Bool} {m : BitVec 7} (h : sg = true → m ≠ 0#7) :
    packSigned sg m ≠ 0x80#8 := by
  intro heq
  have hsg : sg = true := by rw [← signOf_packSigned sg m, heq]; rfl
  have hm : m = 0#7 := by rw [← magnitudeOf_packSigned sg m, heq]; rfl
  exact h hsg hm

theorem possible_okSigned (h : resultForm i = .signedPat) {x : BitVec 8} (hx : x ≠ 0x80#8) :
    (okPattern x).Possible i a :=
  (possible_ok_iff h).mpr ⟨validSigned_setWidth hx, rfl⟩

/-- A move on the magnitude that gives nodes only, with the sign copied. -/
theorem possible_okSigned? (h : resultForm i = .signedPat) (habsent : mayBeAbsent i = true)
    {o : Option (BitVec 7)} (ho : ∀ m, o = some m → m ≠ 0#7) (sg : Bool) :
    (okPattern? (o.map (packSigned sg))).Possible i a := by
  cases o with
  | none => exact habsent
  | some m => exact possible_okSigned h (packSigned_ne_invalid fun _ => ho m rfl)

theorem possible_okSignedPair? (h : resultForm i = .signedPair) (habsent : mayBeAbsent i = true)
    {o : Option (BitVec 7 × BitVec 7)} (ho : ∀ l r, o = some (l, r) → l ≠ 0#7 ∧ r ≠ 0#7) (sg : Bool) :
    (okPair? (o.map fun p => (packSigned sg p.1, packSigned sg p.2))).Possible i a := by
  cases o with
  | none => exact habsent
  | some p =>
    obtain ⟨hl, hr⟩ := ho p.1 p.2 rfl
    exact (possible_ok_iff h).mpr ⟨validSigned_setWidth (packSigned_ne_invalid fun _ => hl),
      validSigned_setWidth (packSigned_ne_invalid fun _ => hr)⟩

/-! ### Fractions, orders and truth values -/

theorem possible_okFrac {f : UFmt} (h : resultForm i = .frac f.width) (x : BitVec f.width) :
    (okFrac (decodeFrac x).num (decodeFrac x).den).Possible i a := by
  obtain ⟨hnum, hden⟩ := decodeFrac_lt_two_pow (UFmt.width_pos f) x
  refine (possible_ok_iff h).mpr ⟨?_, ?_, ?_⟩
  · exact (toNat_ofNat_of_lt_width hnum).trans_lt hnum
  · exact (den_decodeFrac_pos x).trans_eq (toNat_ofNat_of_lt_width hden).symm
  · exact (toNat_ofNat_of_lt_width hden).trans_lt hden

theorem possible_okSignedFrac (h : resultForm i = .sfrac) (sg : Bool) (m : BitVec 7) :
    (okSignedFrac sg (decodeFrac m).num (decodeFrac m).den).Possible i a := by
  obtain ⟨-, hden⟩ : (decodeFrac m).AtMost 21 := decodeFrac_atMost_fib m
  have hpos := den_decodeFrac_pos m
  have hcast : (BitVec.ofNat 64 (decodeFrac m).den).toNat = (decodeFrac m).den := by
    rw [BitVec.toNat_ofNat, Nat.mod_eq_of_lt (by omega)]
  refine (possible_ok_iff h).mpr ⟨toNat_setWidth_lt (w := 8) _, ?_, ?_⟩
  · exact hpos.trans_eq hcast.symm
  · exact hcast.trans_le hden

theorem possible_okOrder (h : resultForm i = .ord) (o : Ordering) : (okOrder o).Possible i a := by
  refine (possible_ok_iff h).mpr ⟨?_, rfl⟩
  cases o with
  | lt => exact .inr (.inr rfl)
  | eq => exact .inl rfl
  | gt => exact .inr (.inl rfl)

theorem possible_okBool (h : resultForm i = .bool) (b : Bool) : (okBool b).Possible i a := by
  refine (possible_ok_iff h).mpr ⟨?_, rfl⟩
  cases b with
  | false => exact .inl rfl
  | true => exact .inr rfl

end

/-! ### Moves answer nodes -/

section
variable {w : Nat} {x y : BitVec w} {bit : Bool}

theorem ne_zero_of_childAt (h : childAt x bit = some y) : y ≠ 0#w :=
  (ne_zero_of_parent (childAt_eq_some_iff.mp h).1).1

theorem ne_zero_of_children {l r : BitVec w} (h : children x = some (l, r)) : l ≠ 0#w ∧ r ≠ 0#w := by
  obtain ⟨hl, hr⟩ := children_eq_some_iff.mp h
  exact ⟨ne_zero_of_childAt (bit := false) hl, ne_zero_of_childAt (bit := true) hr⟩

theorem ne_zero_of_sibling (h : sibling x = some y) : y ≠ 0#w := by
  have hx : x ≠ 0#w := by
    rintro rfl
    simp at h
  have hmark := isMarker_tzcnt hx
  by_cases htop : tzcnt x = w - 1
  · rw [htop] at hmark
    rw [sibling_of_root hmark] at h
    cases h
  · rw [sibling_of_marker hmark htop, Option.some.injEq] at h
    exact h ▸ ne_zero_of_marker (isMarker_xor_twoPow_succ hmark).1

end

/-! ### Accepted operands are presented patterns (30_encoding.md R63, R65) -/

section
variable {s : State} {w : Nat}

theorem raiseUnless_eq_none_iff {p : Prop} [Decidable p] {c : FaultCause} :
    raiseUnless p c = none ↔ p := by
  unfold raiseUnless
  split <;> simp [*]

theorem exists_eq_setWidth (hw : w ≤ 64) {v : Word} (h : v.toNat < 2 ^ w) :
    ∃ x : BitVec w, v = x.setWidth 64 := by
  refine ⟨v.setWidth w, BitVec.eq_of_toNat_eq ?_⟩
  have hpow : 2 ^ w ≤ 2 ^ 64 := Nat.pow_le_pow_right two_pos hw
  rw [BitVec.toNat_setWidth, BitVec.toNat_setWidth, Nat.mod_eq_of_lt h, Nat.mod_eq_of_lt v.isLt]

theorem presents_of_pattern_accepted (hw : w ≤ 64)
    (h : (OperandForm.pattern w).refusal s.req = none) : ∃ x : BitVec w, s.presents x := by
  obtain ⟨hb, ha⟩ := Option.or_eq_none_iff.mp h
  obtain ⟨x, hx⟩ := exists_eq_setWidth hw (raiseUnless_eq_none_iff.mp ha)
  exact ⟨x, hx, raiseUnless_eq_none_iff.mp hb⟩

theorem presents_of_signed_accepted (h : OperandForm.signed.refusal s.req = none) :
    ∃ x : BitVec 8, s.presents x ∧ x ≠ 0x80#8 := by
  obtain ⟨hb, h⟩ := Option.or_eq_none_iff.mp h
  obtain ⟨ha, hx⟩ := Option.or_eq_none_iff.mp h
  obtain ⟨x, hpresents⟩ := exists_eq_setWidth (by norm_num) (raiseUnless_eq_none_iff.mp ha)
  refine ⟨x, ⟨hpresents, raiseUnless_eq_none_iff.mp hb⟩, ?_⟩
  have hvalid := raiseUnless_eq_none_iff.mp hx
  rwa [hpresents, setWidth_setWidth_self (by norm_num)] at hvalid

/-- Where nothing is refused, the operation's own answer is shown. -/
theorem answer_of_accepted {c : Option FaultCause} {k : Answer} (h : c = none) :
    s.answer (c.elim k .fault) = s.answer k := by
  rw [h, Option.elim_none]

end

/-! ### Every instruction gives a possible answer to accepted operands -/

theorem resultForm_of_widenOf {fs ft : UFmt} {i : Instr} (h : widenOf fs ft = some i) :
    resultForm i = .pat ft.width := by
  unfold widenOf at h
  split at h <;> cases h <;> rfl

theorem resultForm_of_narrowOf {fs ft : UFmt} {i : Instr} (h : narrowOf fs ft = some i) :
    resultForm i = .pat ft.width ∧ domainCauses i = [5] := by
  unfold narrowOf at h
  split at h <;> cases h <;> exact ⟨rfl, rfl⟩

theorem resultForm_of_narrowLossyOf {fs ft : UFmt} {i : Instr} (h : narrowLossyOf fs ft = some i) :
    resultForm i = .pat ft.width := by
  unfold narrowLossyOf at h
  split at h <;> cases h <;> rfl

/-- The instruction answers, and possibly so, at `s`. -/
def AnswersPossibly (i : Instr) (s : State) : Prop :=
  ∃ ans, exec i s = s.answer ans ∧ ans.Possible i s.req.a

section
variable {i : Instr} {s : State}

/-- The operations on one unsigned pattern, which is presented once it is accepted. -/
theorem answersPossibly_of_presents {f : UFmt} {x : BitVec f.width} {k : BitVec f.width → Answer}
    (hexec : exec i s = s.answer (withPattern f.width s.req k)) (h : s.presents x)
    (hk : (k x).Possible i s.req.a) : AnswersPossibly i s :=
  ⟨k x, hexec.trans (answer_withPattern_of_presents h k), hk⟩

/-- The operations on one `I8` pattern. -/
theorem answersPossibly_of_presents_signed {x : BitVec 8} {k : Bool → BitVec 7 → Answer}
    (hexec : exec i s = s.answer (withSigned s.req k)) (h : s.presents x) (hx : x ≠ 0x80#8)
    (hk : (k (signOf x) (magnitudeOf x)).Possible i s.req.a) : AnswersPossibly i s :=
  ⟨_, hexec.trans (answer_withSigned_of_presents h hx k), hk⟩

theorem invU_possible {f : UFmt} {x : BitVec f.width} (h : s.presents x) :
    AnswersPossibly (.invU f) s := by
  refine answersPossibly_of_presents rfl h ?_
  split
  · next hx =>
    subst hx
    exact ⟨rfl, ⟨f, rfl⟩, h.1.trans (by simp)⟩
  · exact possible_okPattern rfl _

theorem invChkU_possible {f : UFmt} {x : BitVec f.width} (h : s.presents x) :
    AnswersPossibly (.invChkU f) s := by
  refine answersPossibly_of_presents rfl h ?_
  split
  · rfl
  · exact possible_okPattern rfl _

theorem narrow_possible {fs ft : UFmt} (hrow : narrowOf fs ft = some i) {x : BitVec fs.width}
    (h : s.presents x) : AnswersPossibly i s := by
  obtain ⟨hform, hcauses⟩ := resultForm_of_narrowOf hrow
  refine answersPossibly_of_presents (exec_of_narrowOf hrow s) h ?_
  split
  · exact possible_okPattern hform _
  · exact (congrArg (_ ∈ ·) hcauses).mpr (List.mem_singleton_self 5)

/-- An unsigned format; of a conversion, the source format. -/
theorem pattern_possible {op : Operation} {f : UFmt} {f2 : Option Format} {x : BitVec f.width}
    (hform : operandForm op (.unsigned f) = .pattern f.width)
    (h : instrOf op (.unsigned f) f2 = some i) (hx : s.presents x) : AnswersPossibly i s := by
  cases op with
  | encInt | encFlt | cmp => cases hform
  | dec => cases h; exact answersPossibly_of_presents rfl hx (possible_okFrac rfl x)
  | parent => cases h; exact answersPossibly_of_presents rfl hx (possible_okPattern? rfl rfl _)
  | lchild => cases h; exact answersPossibly_of_presents rfl hx (possible_okPattern? rfl rfl _)
  | rchild => cases h; exact answersPossibly_of_presents rfl hx (possible_okPattern? rfl rfl _)
  | sibling => cases h; exact answersPossibly_of_presents rfl hx (possible_okPattern? rfl rfl _)
  | children => cases h; exact answersPossibly_of_presents rfl hx (possible_okPair? rfl rfl _)
  | isleaf => cases h; exact answersPossibly_of_presents rfl hx (possible_okBool rfl _)
  | inv => cases h; exact invU_possible hx
  | invChk => cases h; exact invChkU_possible hx
  | invUnchk => cases h; exact answersPossibly_of_presents rfl hx (possible_okPattern rfl _)
  | widen =>
    obtain ⟨fs, ft, hfs, -, hrow⟩ := (convertOf_eq_some_iff _ _ _ _).mp h
    cases hfs
    exact answersPossibly_of_presents (exec_of_widenOf hrow s) hx
      (possible_okPattern (resultForm_of_widenOf hrow) _)
  | narrow =>
    obtain ⟨fs, ft, hfs, -, hrow⟩ := (convertOf_eq_some_iff _ _ _ _).mp h
    cases hfs
    exact narrow_possible hrow hx
  | narrowLossy =>
    obtain ⟨fs, ft, hfs, -, hrow⟩ := (convertOf_eq_some_iff _ _ _ _).mp h
    cases hfs
    exact answersPossibly_of_presents (exec_of_narrowLossyOf hrow s) hx
      (possible_okPattern (resultForm_of_narrowLossyOf hrow) _)

/-- The inversion of a valid `I8` pattern is valid: the magnitude of a negative one is not zero. -/
theorem packSigned_invert_ne_invalid {x : BitVec 8} (hx : x ≠ 0x80#8) :
    packSigned (signOf x) (invert (magnitudeOf x)) ≠ 0x80#8 := by
  refine packSigned_ne_invalid fun hsg => invert_ne_zero fun hm => hx ?_
  rw [← packSigned_signOf_magnitudeOf x, hsg, hm]
  rfl

theorem invI8_possible {x : BitVec 8} (h : s.presents x) (hx : x ≠ 0x80#8) :
    AnswersPossibly .invI8 s := by
  refine answersPossibly_of_presents_signed rfl h hx ?_
  split
  · exact possible_okSigned rfl (by decide)
  · exact possible_okSigned rfl (packSigned_invert_ne_invalid hx)

theorem invChkI8_possible {x : BitVec 8} (h : s.presents x) (hx : x ≠ 0x80#8) :
    AnswersPossibly .invChkI8 s := by
  refine answersPossibly_of_presents_signed rfl h hx ?_
  split
  · rfl
  · exact possible_okSigned rfl (packSigned_invert_ne_invalid hx)

/-- The format `I8`. -/
theorem signed_possible {op : Operation} {f2 : Option Format} {x : BitVec 8}
    (hform : operandForm op .i8 = .signed) (h : instrOf op .i8 f2 = some i) (hs : s.presents x)
    (hx : x ≠ 0x80#8) : AnswersPossibly i s := by
  cases op with
  | encInt | encFlt | cmp => cases hform
  | widen | narrow | narrowLossy => cases h
  | dec => cases h; exact answersPossibly_of_presents_signed rfl hs hx (possible_okSignedFrac rfl _ _)
  | parent =>
    cases h
    exact answersPossibly_of_presents_signed rfl hs hx
      (possible_okSigned? rfl rfl (fun _ hm => (ne_zero_of_parent hm).2) _)
  | lchild =>
    cases h
    exact answersPossibly_of_presents_signed rfl hs hx
      (possible_okSigned? rfl rfl (fun _ hm => ne_zero_of_childAt (bit := false) hm) _)
  | rchild =>
    cases h
    exact answersPossibly_of_presents_signed rfl hs hx
      (possible_okSigned? rfl rfl (fun _ hm => ne_zero_of_childAt (bit := true) hm) _)
  | sibling =>
    cases h
    exact answersPossibly_of_presents_signed rfl hs hx
      (possible_okSigned? rfl rfl (fun _ hm => ne_zero_of_sibling hm) _)
  | children =>
    cases h
    exact answersPossibly_of_presents_signed rfl hs hx
      (possible_okSignedPair? rfl rfl (fun _ _ hp => ne_zero_of_children hp) _)
  | isleaf => cases h; exact answersPossibly_of_presents_signed rfl hs hx (possible_okBool rfl _)
  | inv => cases h; exact invI8_possible hs hx
  | invChk => cases h; exact invChkI8_possible hs hx
  | invUnchk =>
    cases h
    exact answersPossibly_of_presents_signed rfl hs hx
      (possible_okSigned rfl (packSigned_invert_ne_invalid hx))

/-! The encoders and `CMP` read their operands in forms of their own. -/

theorem encIntU_possible {f : UFmt} (h : OperandForm.uint64.refusal s.req = none) :
    AnswersPossibly (.encIntU f) s := by
  refine ⟨_, (congrArg s.answer (withUint64_eq_elim s.req _)).trans (answer_of_accepted h), ?_⟩
  split
  · exact List.mem_singleton_self 1
  · exact possible_okPattern rfl _

/-- A negative integer has a magnitude of at least 1, so its pattern is not the invalid one. -/
theorem packSigned_encInt_ne_invalid {n : Int} (hn : n.natAbs ≤ 7) :
    packSigned (decide (n < 0)) (encInt 7 n.natAbs) ≠ 0x80#8 := by
  refine packSigned_ne_invalid fun hneg => ?_
  have hpos := Int.natAbs_pos.mpr (of_decide_eq_true hneg).ne
  exact ne_zero_of_marker (isMarker_encInt hpos hn).1

theorem encIntI8_possible (h : OperandForm.sint8.refusal s.req = none) :
    AnswersPossibly .encIntI8 s := by
  refine ⟨_, (congrArg s.answer (withSint8_eq_elim s.req _)).trans (answer_of_accepted h), ?_⟩
  split
  · exact List.mem_singleton_self 1
  · next hle => exact possible_okSigned rfl (packSigned_encInt_ne_invalid (not_lt.mp hle))

theorem encFltU_possible {f : UFmt} (h : OperandForm.float.refusal s.req = none) :
    AnswersPossibly (.encFltU f) s := by
  refine ⟨_, (congrArg s.answer (withFloat_eq_elim s.req _)).trans (answer_of_accepted h), ?_⟩
  split
  · exact .tail _ (.tail _ (.head _))
  · split
    · exact .head _
    · split
      · exact .tail _ (.head _)
      · exact possible_okPattern rfl _

theorem encFltI8_possible (h : OperandForm.float.refusal s.req = none) :
    AnswersPossibly .encFltI8 s := by
  refine ⟨_, (congrArg s.answer (withFloat_eq_elim s.req _)).trans (answer_of_accepted h), ?_⟩
  split
  · exact .tail _ (.head _)
  · split
    · exact .head _
    · exact possible_okSigned rfl (packSigned_ne_invalid fun _ => encFlt_ne_zero _ (by norm_num) _)

theorem cmpU_possible {f : UFmt} (h : (OperandForm.patterns f.width).refusal s.req = none) :
    AnswersPossibly (.cmpU f) s :=
  ⟨_, (congrArg s.answer (withPatterns_eq_elim _ s.req _)).trans (answer_of_accepted h),
    possible_okOrder rfl _⟩

theorem cmpI8_possible (h : OperandForm.signedPair.refusal s.req = none) :
    AnswersPossibly .cmpI8 s :=
  ⟨_, (congrArg s.answer (withSignedPair_eq_elim s.req _)).trans (answer_of_accepted h),
    possible_okOrder rfl _⟩

/-- Every instruction gives a possible answer to operands its form accepts. -/
theorem exec_possible_of_accepted {op : Operation} {f : Format} {f2 : Option Format}
    (h : instrOf op f f2 = some i) (hr : (operandForm op f).refusal s.req = none) :
    AnswersPossibly i s := by
  cases op with
  | encInt =>
    cases f with
    | unsigned f => cases h; exact encIntU_possible hr
    | i8 => cases h; exact encIntI8_possible hr
  | encFlt =>
    cases f with
    | unsigned f => cases h; exact encFltU_possible hr
    | i8 => cases h; exact encFltI8_possible hr
  | cmp =>
    cases f with
    | unsigned f => cases h; exact cmpU_possible hr
    | i8 => cases h; exact cmpI8_possible hr
  | dec | parent | lchild | rchild | children | sibling | isleaf | inv | invChk | invUnchk | widen
  | narrow | narrowLossy =>
    cases f with
    | unsigned f =>
      obtain ⟨x, hx⟩ := presents_of_pattern_accepted (UFmt.width_le f) hr
      exact pattern_possible rfl h hx
    | i8 =>
      obtain ⟨x, hs, hx⟩ := presents_of_signed_accepted hr
      exact signed_possible rfl h hs hx

/-- Refused operands get the FAULT of their cause. -/
theorem exec_of_refused {op : Operation} {f : Format} {f2 : Option Format} {c : FaultCause}
    (h : instrOf op f f2 = some i) (hr : (operandForm op f).refusal s.req = some c) :
    exec i s = s.answer (.fault c) := by
  obtain ⟨k, hexec⟩ := exec_eq_elim h s
  rw [hexec, hr, Option.elim_some]

/-- All an instruction can do: a FAULT for refused operands, or a possible answer. -/
theorem exec_cases (i : Instr) (s : State) :
    (∃ c, exec i s = s.answer (.fault c)) ∨ AnswersPossibly i s := by
  obtain ⟨op, -, hsel, -⟩ := decode_eq_ok_iff.mp (decode_encode i)
  obtain ⟨f, -, hinstr⟩ := selectInstr_eq_some_iff.mp hsel
  cases hr : (operandForm op f).refusal s.req with
  | none => exact .inr (exec_possible_of_accepted hinstr hr)
  | some c => exact .inl ⟨c, exec_of_refused hinstr hr⟩

end

/-! ### The invariant (R61, R64, R175 to R178) -/

theorem responseSound_fault (s : State) (c : FaultCause) :
    responseSound (s.withResponse (Answer.fault c).response) :=
  ⟨⟨c, by cases c <;> rfl⟩, rfl⟩

theorem responseSound_of_possible {s : State} {i : Instr} {a : Word} {ans : Answer}
    (hdecode : decode s.req.cmd = .ok i) (h : ans.Possible i a) :
    responseSound (s.withResponse ans.response) := by
  cases ans with
  | ok r0 r1 => exact ⟨i, hdecode, h⟩
  | none => exact ⟨⟨i, hdecode, h⟩, rfl, rfl⟩
  | domainError c => exact ⟨⟨i, hdecode, h⟩, rfl⟩
  | fault c => exact responseSound_fault s c

/-- Settles O13: a refused command gets a FAULT, and so do refused operands; accepted ones get a possible
answer of the instruction that the command decodes to. -/
theorem stepKeepsResponseSound : Obligations.StepKeepsResponseSound := by
  unfold Obligations.StepKeepsResponseSound
  intro s t _ hstep
  cases hdecode : decode s.req.cmd with
  | error c =>
    rw [step_of_decode_error hdecode, s.refuse_eq_next_iff] at hstep
    exact hstep ▸ responseSound_fault s c
  | ok i =>
    rw [step_of_decode_ok hdecode] at hstep
    rcases exec_cases i s with ⟨c, hexec⟩ | ⟨ans, hexec, hpossible⟩
    · rw [hexec, s.answer_eq_next_iff] at hstep
      exact hstep ▸ responseSound_fault s c
    · rw [hexec, s.answer_eq_next_iff] at hstep
      exact hstep ▸ responseSound_of_possible hdecode hpossible

/-- Settles O14: the reset state shows a FAULT, and a FAULT is sound for every request. -/
theorem resetResponseSound : Obligations.ResetResponseSound :=
  responseSound_fault State.reset .illegalOp

end Sys2Proof.Machine
end

section
/-! What follows from the possible answers: which accepted requests fault (60_exceptions.md R177, R179), and
that no `I8` operation returns the invalid pattern (45_signed.md R155 item 1). -/

namespace Sys2Proof.Machine

/-! ### Accepted requests -/

/-- A request is refused for its command or for its operands. -/
theorem refusal_eq_none_iff (r : Request) :
    r.refusal = none ↔ r.cmd.wellFormed = true ∧ operandRefusal r = none := by
  simp only [Command.wellFormed, Bool.and_eq_true]
  cases hop : r.cmd.opAssigned with
  | false => simp [refusal_of_unassigned hop]
  | true =>
    cases hfmt : r.cmd.formatLegal with
    | false => simp [refusal_of_illegal_format hop hfmt]
    | true =>
      cases hrsv : r.cmd.reservedClear with
      | false => simp [refusal_of_reserved_bits hop hfmt hrsv]
      | true => simp [refusal_of_wellFormed_command hop hfmt hrsv]

/-- The instruction of an accepted request answers possibly: its operand form finds the same first cause
as the request's own fields, which is none. -/
theorem answersPossibly_of_operandRefusal_none {s : State} {i : Instr}
    (hdecode : decode s.req.cmd = .ok i) (h : operandRefusal s.req = none) : AnswersPossibly i s := by
  obtain ⟨op, hop, hsel, -⟩ := decode_eq_ok_iff.mp hdecode
  obtain ⟨f, hf, hinstr⟩ := selectInstr_eq_some_iff.mp hsel
  refine exec_possible_of_accepted hinstr ?_
  rw [← h, operandRefusal_eq ((toNat_cmdOp _).symm.trans (code_of_operationOf hop))
    ((toNat_cmdFmt _).symm.trans (code_of_formatOf hf))]

/-- An accepted `INV` has a zero on port `b`, like every operation but `CMP` (R65). -/
theorem b_eq_zero_of_invU {s : State} {f : UFmt} (hdecode : decode s.req.cmd = .ok (.invU f))
    (h : operandRefusal s.req = none) : s.req.b = 0#64 := by
  have hop : s.req.cmd.opField = Operation.inv.code.toNat := by
    rw [← encode_of_decode hdecode]
    cases f <;> rfl
  have hclear := raiseUnless_eq_none_iff.mp (Option.or_eq_none_iff.mp h).1
  exact ((bClear_iff hop).mp hclear).resolve_right nofun

theorem exec_invU_zero {s : State} {f : UFmt} (ha : s.req.a = 0#64) (hb : s.req.b = 0#64) :
    exec (.invU f) s = s.answer (.fault .invertZero) := by
  have hzero : s.presents (0#f.width) := ⟨ha.trans (by simp), hb⟩
  rw [exec_invU hzero, if_pos rfl]
  rfl

theorem status_response_eq_fault_iff (ans : Answer) :
    ans.response.status = 0b11 ↔ ∃ c, ans = .fault c := by
  cases ans <;> simp

/-- `INV` of zero is the one accepted request with a FAULT. -/
theorem fault_iff_invU_zero {s : State} {i : Instr} {ans : Answer}
    (hdecode : decode s.req.cmd = .ok i) (hoperands : operandRefusal s.req = none)
    (hexec : exec i s = s.answer ans) (hpossible : ans.Possible i s.req.a) :
    (∃ c, ans = .fault c) ↔ (∃ f, i = .invU f) ∧ s.req.a = 0#64 := by
  constructor
  · rintro ⟨c, rfl⟩
    exact hpossible.2
  · rintro ⟨⟨f, rfl⟩, ha⟩
    rw [exec_invU_zero ha (b_eq_zero_of_invU hdecode hoperands)] at hexec
    have hnext := (s.answer_eq_next_iff _ ans).mp hexec.symm
    have hresponse := congrArg State.rsp hnext
    rw [State.withResponse_rsp, State.withResponse_rsp] at hresponse
    rw [← status_response_eq_fault_iff, ← hresponse]
    rfl

/-- Settles O8: the one FAULT among the possible answers is INVERT_ZERO, from the unsigned `INV` of zero, and
that request does get it. -/
theorem acceptedRequestsRunTheirInstruction : Obligations.AcceptedRequestsRunTheirInstruction := by
  unfold Obligations.AcceptedRequestsRunTheirInstruction
  intro s h
  obtain ⟨hwf, hoperands⟩ := (refusal_eq_none_iff s.req).mp h
  obtain ⟨i, hdecode⟩ := (decoderAcceptsWellFormedCommands s.req.cmd).mpr hwf
  obtain ⟨ans, hexec, hpossible⟩ := answersPossibly_of_operandRefusal_none hdecode hoperands
  have hnext : exec i s = .next (s.withResponse ans.response) := hexec
  have hstatus := status_response_eq_fault_iff ans
  refine ⟨i, _, hdecode, hnext, (step_of_decode_ok hdecode).trans hnext,
    hstatus.trans (fault_iff_invU_zero hdecode hoperands hexec hpossible), fun hfault => ?_⟩
  obtain ⟨c, rfl⟩ := hstatus.mp hfault
  obtain ⟨rfl, -⟩ := hpossible
  rfl

/-! ### No negative zero -/

/-- No word of the response is the invalid `I8` pattern. -/
def NoInvalid (r : Response) : Prop := r.r0 ≠ 0x80 ∧ r.r1 ≠ 0x80

theorem noInvalid_fault (c : FaultCause) : NoInvalid (Answer.fault c).response :=
  ⟨by cases c <;> decide, (by decide : (0 : Word) ≠ 0x80)⟩

/-- Results in a signed form are valid patterns, and a cause is a small number. -/
theorem noInvalid_of_possible {i : Instr} {a : Word} {ans : Answer}
    (hform : resultForm i = .signedPat ∨ resultForm i = .signedPair) (h : ans.Possible i a) :
    NoInvalid ans.response := by
  have hzero : (0 : Word) ≠ 0x80 := by decide
  cases ans with
  | ok r0 r1 =>
    rcases hform with hform | hform
    · obtain ⟨⟨-, h0⟩, h1⟩ := (possible_ok_iff hform).mp h
      exact ⟨h0, h1.trans_ne hzero⟩
    · obtain ⟨⟨-, h0⟩, ⟨-, h1⟩⟩ := (possible_ok_iff hform).mp h
      exact ⟨h0, h1⟩
  | none => exact ⟨hzero, hzero⟩
  | domainError c => exact ⟨by cases c <;> decide, hzero⟩
  | fault c => exact noInvalid_fault c

/-- Settles O51: the ten operations have a signed result form. -/
theorem noSignedNegativeZero : Obligations.NoSignedNegativeZero := by
  unfold Obligations.NoSignedNegativeZero
  intro i s t hi ht
  have hform : resultForm i = .signedPat ∨ resultForm i = .signedPair := by
    clear ht
    revert i
    decide
  rcases exec_cases i s with ⟨c, hexec⟩ | ⟨ans, hexec, hpossible⟩
  · rw [hexec, s.answer_eq_next_iff] at ht
    exact ht ▸ noInvalid_fault c
  · rw [hexec, s.answer_eq_next_iff] at ht
    exact ht ▸ noInvalid_of_possible hform hpossible

end Sys2Proof.Machine
end

section
/-! `CMP.I8` (45_signed.md R145): signs first, then magnitudes, which two negatives compare in reverse. That is
the order of the signed values (R155 item 3). -/

namespace Sys2Proof.Machine

section
variable {x y : BitVec 8} {s : State}

theorem exec_cmpI8_invalid (h : s.presentsPair x y) (hxy : x = 0x80#8 ∨ y = 0x80#8) :
    exec .cmpI8 s = .next (s.faulted 6) := by
  refine (congrArg s.answer (withSignedPair_clean s.req x y h.1 h.2 _)).trans ?_
  rw [if_pos hxy]
  rfl

theorem exec_cmpI8 (h : s.presentsPair x y) (hx : x ≠ 0x80#8) (hy : y ≠ 0x80#8) :
    exec .cmpI8 s = .next (s.ok ((orderCode (scmp x y)).setWidth 64) 0) := by
  refine (congrArg s.answer (withSignedPair_clean s.req x y h.1 h.2 _)).trans ?_
  rw [if_neg (not_or.mpr ⟨hx, hy⟩)]
  rfl

/-! ### The order as arithmetic on the containers (R145) -/

/-- The code of a comparison of numbers (42_compare.md R111). -/
theorem orderCode_compare (p q : Nat) :
    (orderCode (compare p q)).setWidth 64 =
      if p < q then 0b11#64 else if p = q then 0b00#64 else 0b01#64 := by
  rcases lt_trichotomy p q with hlt | rfl | hgt
  · rw [if_pos hlt, compare_lt_iff_lt.mpr hlt]
    rfl
  · rw [if_neg (lt_irrefl p), if_pos rfl, compare_eq_iff_eq.mpr rfl]
    rfl
  · rw [if_neg hgt.asymm, if_neg hgt.ne', compare_gt_iff_gt.mpr hgt]
    rfl

theorem ucmp_magnitudeOf (x y : BitVec 8) :
    ucmp (magnitudeOf x) (magnitudeOf y) = compare (x.toNat % 128) (y.toNat % 128) := by
  rw [ucmp, toNat_magnitudeOf, toNat_magnitudeOf]

theorem signOf_eq_false_iff : signOf x = false ↔ x.toNat < 128 := by
  rw [Bool.eq_false_iff, ne_eq, signOf_iff, not_le]

theorem scmp_eq_ite (x y : BitVec 8) :
    scmp x y =
      if x.toNat < 128 ∧ y.toNat < 128 then compare (x.toNat % 128) (y.toNat % 128)
      else if 128 ≤ x.toNat ∧ y.toNat < 128 then .lt
      else if x.toNat < 128 ∧ 128 ≤ y.toNat then .gt
      else compare (y.toNat % 128) (x.toNat % 128) := by
  rcases lt_or_ge x.toNat 128 with hx | hx
  · have hsx := signOf_eq_false_iff.mpr hx
    rcases lt_or_ge y.toNat 128 with hy | hy
    · simp [scmp, hsx, signOf_eq_false_iff.mpr hy, ucmp_magnitudeOf, hx, hy]
    · simp [scmp, hsx, signOf_iff.mpr hy, hx, hy, not_lt.mpr hy]
  · have hsx := signOf_iff.mpr hx
    rcases lt_or_ge y.toNat 128 with hy | hy
    · simp [scmp, hsx, signOf_eq_false_iff.mpr hy, hx, hy, not_lt.mpr hx]
    · simp [scmp, hsx, signOf_iff.mpr hy, ucmp_magnitudeOf, not_lt.mpr hx, not_lt.mpr hy]

end

/-- Settles O46: the code of `scmp`, written as arithmetic. -/
theorem cmpSigned : Obligations.CmpSigned := by
  unfold Obligations.CmpSigned
  refine ⟨rfl, fun x y s h => ⟨exec_cmpI8_invalid h, fun hx hy => ?_⟩⟩
  rw [exec_cmpI8 h hx hy, scmp_eq_ite]
  simp only [apply_ite orderCode, apply_ite (BitVec.setWidth 64), orderCode_compare]
  rfl

/-! ### The order of the signed values -/

section
variable {x y : BitVec 8}

theorem patternValue_zero (w : Nat) : patternValue (0#w) = 0 := if_pos rfl

theorem patternValue_nonneg {w : Nat} (x : BitVec w) : 0 ≤ patternValue x := by
  rw [patternValue_eq_toRat_decodeFrac, Frac.toRat]
  positivity

theorem patternValue_pos {w : Nat} {x : BitVec w} (hx : x ≠ 0#w) : 0 < patternValue x := by
  rw [← patternValue_zero w, patternValue_lt_patternValue_iff, BitVec.toNat_ofNat, Nat.zero_mod]
  exact Nat.pos_of_ne_zero fun h => hx (BitVec.eq_of_toNat_eq (by simpa using h))

/-- `CMP` on unsigned patterns compares their values (42_compare.md R112). -/
theorem ucmp_eq_compare_patternValue {w : Nat} (x y : BitVec w) :
    ucmp x y = compare (patternValue x) (patternValue y) := by
  rcases lt_trichotomy x.toNat y.toNat with hlt | heq | hgt
  · rw [ucmp, compare_lt_iff_lt.mpr hlt,
      compare_lt_iff_lt.mpr (patternValue_lt_patternValue_iff.mpr hlt)]
  · rw [ucmp, BitVec.eq_of_toNat_eq heq, compare_eq_iff_eq.mpr rfl, compare_eq_iff_eq.mpr rfl]
  · rw [ucmp, compare_gt_iff_gt.mpr hgt,
      compare_gt_iff_gt.mpr (patternValue_lt_patternValue_iff.mpr hgt)]

theorem signedValue_of_nonneg (h : signOf x = false) :
    signedValue x = patternValue (magnitudeOf x) := by
  rw [signedValue, h, if_neg Bool.false_ne_true, one_mul]

theorem signedValue_of_neg (h : signOf x = true) :
    signedValue x = -patternValue (magnitudeOf x) := by
  rw [signedValue, h, if_pos rfl, neg_one_mul]

/-- A sign stands before a nonzero magnitude: the invalid pattern would be the negative zero (R55). -/
theorem magnitudeOf_ne_zero_of_sign (hx : x ≠ 0x80#8) (h : signOf x = true) : magnitudeOf x ≠ 0#7 := by
  rw [ne_eq, magnitudeOf_eq_zero_iff hx]
  rintro rfl
  cases h

theorem signedValue_lt_of_signs (hx : x ≠ 0x80#8) (hneg : signOf x = true)
    (hpos : signOf y = false) : signedValue x < signedValue y := by
  rw [signedValue_of_neg hneg, signedValue_of_nonneg hpos]
  exact (neg_neg_of_pos (patternValue_pos (magnitudeOf_ne_zero_of_sign hx hneg))).trans_le
    (patternValue_nonneg _)

theorem scmp_eq_compare_signedValue (hx : x ≠ 0x80#8) (hy : y ≠ 0x80#8) :
    scmp x y = compare (signedValue x) (signedValue y) := by
  rw [scmp]
  cases hsx : signOf x with
  | false =>
    cases hsy : signOf y with
    | false =>
      rw [signedValue_of_nonneg hsx, signedValue_of_nonneg hsy]
      exact ucmp_eq_compare_patternValue _ _
    | true => exact (compare_gt_iff_gt.mpr (signedValue_lt_of_signs hy hsy hsx)).symm
  | true =>
    cases hsy : signOf y with
    | false => exact (compare_lt_iff_lt.mpr (signedValue_lt_of_signs hx hsx hsy)).symm
    | true =>
      have hanti : StrictAnti (Neg.neg : ℚ → ℚ) := fun _ _ => neg_lt_neg
      rw [signedValue_of_neg hsx, signedValue_of_neg hsy, ← cmp_eq_compare, hanti.cmp_map_eq,
        cmp_eq_compare]
      exact ucmp_eq_compare_patternValue _ _

end

/-- Settles O47: the three results of the comparison, each with its code. -/
theorem signedOrderIsValueOrder : Obligations.SignedOrderIsValueOrder := by
  unfold Obligations.SignedOrderIsValueOrder
  intro x y s h hx hy
  rw [exec_cmpI8 h hx hy, scmp_eq_compare_signedValue hx hy]
  refine ⟨fun hlt => ?_, fun heq => ?_, fun hgt => ?_⟩
  · rw [compare_lt_iff_lt.mpr hlt]; rfl
  · rw [compare_eq_iff_eq.mpr heq]; rfl
  · rw [compare_gt_iff_gt.mpr hgt]; rfl

end Sys2Proof.Machine
end

section
/-! Round trips of the signed variant through the machine (45_signed.md R155 items 2 and 4): the pattern a
response shows is presented again. -/

namespace Sys2Proof.Machine

section
variable {x : BitVec 8} {s t : State}

/-- A pattern answered is a pattern presented. -/
theorem presents_response {w : Nat} {r : BitVec w} (h : t = s.ok (r.setWidth 64) 0) (cmd : Command) :
    (t.present { cmd := cmd, a := t.rsp.r0, b := 0 }).presents r := by
  subst h
  exact ⟨rfl, rfl⟩

/-! ### `DEC` after `ENC_INT` -/

theorem exec_decI8_packSigned_encInt {n : Int} (hn : n.natAbs ≤ 7)
    (h : s.presents (packSigned (decide (n < 0)) (encInt 7 n.natAbs))) :
    exec .decI8 s = .next (s.ok ((BitVec.ofInt 8 n).setWidth 64) 1) := by
  have hsign : (if decide (n < 0) then -(n.natAbs : Int) else n.natAbs) = n := by
    simp only [decide_eq_true_eq]
    omega
  rw [exec_decI8 h (packSigned_encInt_ne_invalid hn), signOf_packSigned, magnitudeOf_packSigned,
    decodeFrac_encInt hn, okSignedFrac_eq _ (hn.trans (by norm_num)), hsign]
  rfl

/-! ### `INV` and `DEC` after `INV` -/

theorem magnitudeOf_ne_zero (h0 : x ≠ 0#8) (hx : x ≠ 0x80#8) : magnitudeOf x ≠ 0#7 :=
  (magnitudeOf_eq_zero_iff hx).not.mpr h0

theorem exec_invI8_of_ne_zero (h : s.presents x) (h0 : x ≠ 0#8) (hx : x ≠ 0x80#8) :
    exec .invI8 s = .next (s.ok ((invertSigned x).setWidth 64) 0) := by
  rw [exec_invI8 h hx, if_neg (magnitudeOf_ne_zero h0 hx)]

@[simp] theorem signOf_invertSigned (x : BitVec 8) : signOf (invertSigned x) = signOf x :=
  signOf_packSigned _ _

@[simp] theorem magnitudeOf_invertSigned (x : BitVec 8) :
    magnitudeOf (invertSigned x) = invert (magnitudeOf x) := magnitudeOf_packSigned _ _

theorem invertSigned_invertSigned (x : BitVec 8) : invertSigned (invertSigned x) = x := by
  rw [invertSigned, signOf_invertSigned, magnitudeOf_invertSigned, invert_invert,
    packSigned_signOf_magnitudeOf]

theorem invertSigned_ne_invalid (hx : x ≠ 0x80#8) : invertSigned x ≠ 0x80#8 :=
  packSigned_invert_ne_invalid hx

theorem invertSigned_ne_zero (h0 : x ≠ 0#8) (hx : x ≠ 0x80#8) : invertSigned x ≠ 0#8 := by
  rw [ne_eq, ← magnitudeOf_eq_zero_iff (invertSigned_ne_invalid hx), magnitudeOf_invertSigned]
  exact invert_ne_zero (magnitudeOf_ne_zero h0 hx)

theorem exec_decI8_invertSigned (h : s.presents (invertSigned x)) (h0 : x ≠ 0#8) (hx : x ≠ 0x80#8) :
    exec .decI8 s =
      .next (s.ok ((BitVec.ofInt 8 (if 128 ≤ x.toNat then -((decodeFrac (x.setWidth 7)).den : Int)
        else (decodeFrac (x.setWidth 7)).den)).setWidth 64)
        (BitVec.ofNat 64 (decodeFrac (x.setWidth 7)).num)) := by
  obtain ⟨-, hden⟩ : (decodeFrac (x.setWidth 7)).AtMost 21 := decodeFrac_atMost_fib _
  rw [exec_decI8 h (invertSigned_ne_invalid hx), signOf_invertSigned, magnitudeOf_invertSigned,
    decodeFrac_invert (magnitudeOf_ne_zero h0 hx), Frac.swap_num, Frac.swap_den,
    magnitudeOf_eq_setWidth, okSignedFrac_eq _ (hden.trans (by norm_num))]
  simp only [signOf_iff]
  rfl

end

/-- Settles O52: what is shown is presented again, and undoing the encoding or the inversion gives it back. -/
theorem signedRoundTrips : Obligations.SignedRoundTrips := by
  unfold Obligations.SignedRoundTrips
  refine ⟨fun n s t hlo hhi h ht => ?_, fun x s t h0 hx h ht => ?_⟩
  · have hn : n.natAbs ≤ 7 := by omega
    rw [exec_encIntI8 (by omega) (by omega) h, if_neg (by omega), s.answer_eq_next_iff] at ht
    exact exec_decI8_packSigned_encInt hn (presents_response ht _)
  · rw [exec_invI8_of_ne_zero h h0 hx] at ht
    have ht := (Host.Outcome.next.inj ht).symm
    have hinv := exec_invI8_of_ne_zero (presents_response ht 0x0090)
      (invertSigned_ne_zero h0 hx) (invertSigned_ne_invalid hx)
    rw [invertSigned_invertSigned] at hinv
    exact ⟨hinv, exec_decI8_invertSigned (presents_response ht 0x0081) h0 hx⟩

end Sys2Proof.Machine
end

section
/-! The conversions as instructions (46_convert.md R167 to R169): multiplication and division by the power of
two between the widths. -/

namespace Sys2Proof.Machine

section
variable {ws wt : Nat} {x : BitVec ws}

/-! ### Narrowing as arithmetic -/

theorem lowClear_iff_mod (x : BitVec ws) : lowClear wt x = true ↔ x.toNat % 2 ^ (ws - wt) = 0 := by
  rw [lowClear, beq_iff_eq, ← BitVec.toNat_inj, BitVec.extractLsb'_toNat, Nat.shiftRight_zero]
  simp

theorem toNat_dropLow (h : wt ≤ ws) (x : BitVec ws) :
    (dropLow wt x).toNat = x.toNat / 2 ^ (ws - wt) := by
  have hpow : 2 ^ ws = 2 ^ (ws - wt) * 2 ^ wt := by rw [← pow_add, Nat.sub_add_cancel h]
  have hfits : x.toNat / 2 ^ (ws - wt) < 2 ^ wt := Nat.div_lt_of_lt_mul (hpow ▸ x.isLt)
  rw [dropLow, BitVec.toNat_setWidth, BitVec.toNat_ushiftRight, Nat.shiftRight_eq_div_pow,
    Nat.mod_eq_of_lt hfits]

theorem narrowLossyPattern_of_not_lowClear (h : lowClear wt x ≠ true) :
    narrowLossyPattern wt x = dropLow wt x ||| 1 := if_neg h

theorem toNat_dropLow_or_one (hpos : 0 < wt) (h : wt ≤ ws) (x : BitVec ws) :
    (dropLow wt x ||| 1).toNat = x.toNat / 2 ^ (ws - wt) ||| 1 := by
  have hone : (1#wt).toNat = 1 := Nat.mod_eq_of_lt (Nat.one_lt_two_pow hpos.ne')
  rw [BitVec.toNat_or, toNat_dropLow h]
  exact congrArg _ hone

end

/-! ### The instructions of the three tables (R166) -/

/-- A pattern as a result is its number. -/
theorem answer_okPattern_toNat {w n : Nat} (s : State) {x : BitVec w} (h : x.toNat = n) :
    s.answer (okPattern x) = .next (s.ok (BitVec.ofNat 64 n) 0) := by
  rw [answer_okPattern, ← h, BitVec.ofNat_toNat]

section
variable {fs ft : UFmt} {i : Instr}

theorem widens_of_widenOf (h : widenOf fs ft = some i) (hwidth : fs.width ≤ ft.width) :
    Widens i fs.width ft.width := by
  intro s x hs
  rw [exec_of_widenOf h, widenAnswer, answer_withPattern_of_presents hs]
  exact answer_okPattern_toNat s (toNat_widenPattern hwidth x)

theorem narrows_of_narrowOf (h : narrowOf fs ft = some i) (hwidth : ft.width ≤ fs.width) :
    Narrows i fs.width ft.width := by
  intro s x hs
  rw [exec_of_narrowOf h, narrowAnswer, answer_withPattern_of_presents hs, ne_eq,
    ← lowClear_iff_mod]
  refine ⟨fun hlost => ?_, fun hclear => ?_⟩
  · rw [if_neg hlost]
    rfl
  · rw [if_pos hclear]
    exact answer_okPattern_toNat s (toNat_dropLow hwidth x)

theorem narrowsLossily_of_narrowLossyOf (h : narrowLossyOf fs ft = some i)
    (hwidth : ft.width ≤ fs.width) : NarrowsLossily i fs.width ft.width := by
  intro s x hs
  rw [exec_of_narrowLossyOf h, narrowLossyAnswer, answer_withPattern_of_presents hs,
    ne_eq, ← lowClear_iff_mod]
  refine ⟨fun hlost => ?_, fun hclear => ?_⟩
  · rw [narrowLossyPattern_of_not_lowClear hlost]
    exact answer_okPattern_toNat s (toNat_dropLow_or_one (UFmt.width_pos ft) hwidth x)
  · rw [narrowLossyPattern_of_lowClear hclear]
    exact answer_okPattern_toNat s (toNat_dropLow hwidth x)

end

/-- Settles O53: the six rows of the table of `WIDEN`. -/
theorem widenAnswers : Obligations.WidenAnswers :=
  ⟨widens_of_widenOf (fs := .u8) (ft := .u16) rfl (by decide),
    widens_of_widenOf (fs := .u8) (ft := .u32) rfl (by decide),
    widens_of_widenOf (fs := .u8) (ft := .u64) rfl (by decide),
    widens_of_widenOf (fs := .u16) (ft := .u32) rfl (by decide),
    widens_of_widenOf (fs := .u16) (ft := .u64) rfl (by decide),
    widens_of_widenOf (fs := .u32) (ft := .u64) rfl (by decide)⟩

/-- Settles O54: the six rows of the table of `NARROW`. -/
theorem narrowAnswers : Obligations.NarrowAnswers :=
  ⟨narrows_of_narrowOf (fs := .u16) (ft := .u8) rfl (by decide),
    narrows_of_narrowOf (fs := .u32) (ft := .u8) rfl (by decide),
    narrows_of_narrowOf (fs := .u64) (ft := .u8) rfl (by decide),
    narrows_of_narrowOf (fs := .u32) (ft := .u16) rfl (by decide),
    narrows_of_narrowOf (fs := .u64) (ft := .u16) rfl (by decide),
    narrows_of_narrowOf (fs := .u64) (ft := .u32) rfl (by decide)⟩

/-- Settles O55: the six rows of the table of `NARROW_LOSSY`. -/
theorem narrowLossyAnswers : Obligations.NarrowLossyAnswers :=
  ⟨narrowsLossily_of_narrowLossyOf (fs := .u16) (ft := .u8) rfl (by decide),
    narrowsLossily_of_narrowLossyOf (fs := .u32) (ft := .u8) rfl (by decide),
    narrowsLossily_of_narrowLossyOf (fs := .u64) (ft := .u8) rfl (by decide),
    narrowsLossily_of_narrowLossyOf (fs := .u32) (ft := .u16) rfl (by decide),
    narrowsLossily_of_narrowLossyOf (fs := .u64) (ft := .u16) rfl (by decide),
    narrowsLossily_of_narrowLossyOf (fs := .u64) (ft := .u32) rfl (by decide)⟩

end Sys2Proof.Machine
end

section
/-! What a lossy narrowing keeps of a node (46_convert.md R169): the first `Wt − 1` decisions of its path. -/

namespace Sys2Proof.Machine

section
variable {ws wt : Nat} {x : BitVec ws}

/-! ### The marker is kept -/

/-- A pattern whose low bits are clear is a widened one, and widening keeps the path. -/
theorem pathBits_dropLow (h : wt ≤ ws) (hx : x ≠ 0#ws) (hclear : lowClear wt x = true) :
    dropLow wt x ≠ 0#wt ∧ pathBits (dropLow wt x) = pathBits x := by
  have hwiden := widenPattern_dropLow h hclear
  have hne : dropLow wt x ≠ 0#wt := by
    intro hzero
    rw [hzero, widenPattern_zero] at hwiden
    exact hx hwiden.symm
  refine ⟨hne, ?_⟩
  rw [← pathBits_widenPattern h hne, hwiden]

/-! ### The marker is discarded -/

theorem getLsbD_dropLow_or_one (hpos : 0 < wt) (x : BitVec ws) (i : Nat) :
    (dropLow wt x ||| 1).getLsbD i =
      (decide (i < wt) && (decide (i = 0) || x.getLsbD (i + (ws - wt)))) := by
  have hone : (1#wt).getLsbD i = decide (i = 0) := by simp [hpos]
  rw [BitVec.getLsbD_or, getLsbD_dropLow, show (1 : BitVec wt) = 1#wt from rfl, hone]
  grind

theorem isMarker_dropLow_or_one (hpos : 0 < wt) (x : BitVec ws) : IsMarker (dropLow wt x ||| 1) 0 :=
  ⟨by simp [hpos], fun _ hj => absurd hj (Nat.not_lt_zero _)⟩

/-- A marker that is discarded lies deeper than the result can. -/
theorem tzcnt_lt_of_not_lowClear (h : lowClear wt x ≠ true) : tzcnt x < ws - wt := by
  by_contra hle
  refine h (lowClear_iff.mpr fun i hi => ?_)
  by_contra hbit
  exact absurd (tzcnt_le_of_getLsbD (by simpa using hbit)) (by omega)

/-- The new marker stands at bit 0, under the top `Wt − 1` bits of the source. -/
theorem pathBits_dropLow_or_one (hpos : 0 < wt) (h : wt ≤ ws) (hlost : lowClear wt x ≠ true) :
    pathBits (dropLow wt x ||| 1) = (pathBits x).take (wt - 1) := by
  have htz := tzcnt_lt_of_not_lowClear hlost
  have hmin : min (wt - 1) (ws - 1 - tzcnt x) = wt - 1 := by omega
  rw [pathBits, pathBits, depth, depth, tzcnt_of_isMarker (isMarker_dropLow_or_one hpos x),
    ← List.map_take, List.take_range, hmin]
  refine List.map_congr_left fun j hj => ?_
  have hj : j < wt - 1 := List.mem_range.mp hj
  have hplace : wt - 1 - j + (ws - wt) = ws - 1 - j := by omega
  rw [getLsbD_dropLow_or_one hpos, hplace, decide_eq_true (by omega), decide_eq_false (by omega),
    Bool.true_and, Bool.false_or]

end

/-- Settles O56: either the marker is kept, and with it the whole path, or the path is cut at `Wt − 1`. -/
theorem narrowLossyIsAncestor : Obligations.NarrowLossyIsAncestor := by
  unfold Obligations.NarrowLossyIsAncestor
  intro ws wt x hpos hlt hx
  by_cases hclear : lowClear wt x = true
  · obtain ⟨hne, hpath⟩ := pathBits_dropLow hlt.le hx hclear
    have hlength : (pathBits x).length ≤ wt - 1 := by
      rw [← hpath, length_pathBits]
      exact depth_le _
    rw [narrowLossyPattern_of_lowClear hclear, hpath, List.take_of_length_le hlength]
    exact ⟨hne, rfl⟩
  · rw [narrowLossyPattern_of_not_lowClear hclear]
    exact ⟨ne_zero_of_marker (isMarker_dropLow_or_one hpos x).1,
      pathBits_dropLow_or_one hpos hlt.le hclear⟩

end Sys2Proof.Machine
end

section
/-! The subtrees of a node are intervals of patterns (42_compare.md R113). A node `y` lies under `x` where it
agrees with `x` above the marker of `x` and has its own marker below; as numbers, `x` is an odd multiple of
`2^t`, and the two subtrees are the open intervals between it and the multiples next to it. -/

namespace Sys2Proof.Machine

section
variable {w t : Nat} {x y : BitVec w} {bit : Bool}

/-! ### A subtree, bit by bit -/

theorem bitsAbove_eq_iff : bitsAbove x t = bitsAbove y t ↔ ∀ j, t < j → x.getLsbD j = y.getLsbD j := by
  refine ⟨fun h j hj => ?_, bitsAbove_congr⟩
  by_cases hjw : j < w
  · have hbit := List.map_inj_left.mp h (w - 1 - j) (List.mem_range.mpr (by omega))
    rwa [show w - 1 - (w - 1 - j) = j by omega] at hbit
  · rw [BitVec.getLsbD_of_ge x j (not_lt.mp hjw), BitVec.getLsbD_of_ge y j (not_lt.mp hjw)]

theorem bitsAbove_of_isMarker (hx : IsMarker x t) : bitsAbove x t = pathBits x := by
  rw [← tzcnt_of_isMarker hx, bitsAbove_tzcnt]

/-- The path of `y` goes on from that of `x` by `bit`. -/
theorem pathBits_concat_prefix_iff (hx : IsMarker x t) (hy : y ≠ 0#w) :
    pathBits x ++ [bit] <+: pathBits y ↔
      tzcnt y < t ∧ y.getLsbD t = bit ∧ ∀ j, t < j → x.getLsbD j = y.getLsbD j := by
  have htw : t < w := BitVec.lt_of_getLsbD hx.1
  constructor
  · intro h
    have hlength := h.length_le
    rw [List.length_append, length_pathBits, length_pathBits, depth_eq_of_marker hx.1 hx.2, depth,
      List.length_singleton] at hlength
    have htz : tzcnt y < t := by
      have := tzcnt_lt hy
      omega
    have hprefix : bitsAbove y t ++ [y.getLsbD t] = pathBits x ++ [bit] := by
      refine (List.prefix_of_prefix_length_le (bitsAbove_concat_prefix htz htw) h ?_).eq_of_length ?_
      all_goals simp [← bitsAbove_of_isMarker hx, bitsAbove]
    obtain ⟨habove, hbit⟩ := List.append_inj' hprefix rfl
    rw [← bitsAbove_of_isMarker hx] at habove
    exact ⟨htz, List.singleton_inj.mp hbit, bitsAbove_eq_iff.mp habove.symm⟩
  · rintro ⟨htz, rfl, habove⟩
    rw [← bitsAbove_of_isMarker hx, bitsAbove_congr habove]
    exact bitsAbove_concat_prefix htz htw

/-! ### The same conditions as arithmetic -/

/-- The bits below `t` are the remainder modulo `2^t`. -/
theorem mod_two_pow_eq_zero_iff (ht : t ≤ w) :
    x.toNat % 2 ^ t = 0 ↔ ∀ i < t, x.getLsbD i = false := by
  have hwidth : w - (w - t) = t := by omega
  have hmod := lowClear_iff_mod (wt := w - t) x
  rw [lowClear_iff, hwidth] at hmod
  exact hmod.symm

theorem tzcnt_lt_iff_mod (hy : y ≠ 0#w) (ht : t ≤ w) : tzcnt y < t ↔ y.toNat % 2 ^ t ≠ 0 := by
  rw [ne_eq, mod_two_pow_eq_zero_iff ht, ← not_le, not_iff_not]
  obtain ⟨hmark, hlow⟩ := marker_tzcnt hy
  refine ⟨fun hle i hi => hlow i (hi.trans_le hle), fun h => ?_⟩
  by_contra hlt
  rw [h _ (not_le.mp hlt)] at hmark
  cases hmark

/-- The bits above `t` are the quotient by `2^(t + 1)`. -/
theorem agree_above_iff_div :
    (∀ j, t < j → x.getLsbD j = y.getLsbD j) ↔ x.toNat / 2 ^ t / 2 = y.toNat / 2 ^ t / 2 := by
  rw [Nat.div_div_eq_div_mul, Nat.div_div_eq_div_mul, ← pow_succ]
  constructor
  · refine fun h => Nat.eq_of_testBit_eq fun j => ?_
    rw [Nat.testBit_div_two_pow, Nat.testBit_div_two_pow]
    exact h _ (by omega)
  · intro h j hj
    have hbit := congrArg (Nat.testBit · (j - (t + 1))) h
    simp only [Nat.testBit_div_two_pow] at hbit
    rwa [show j - (t + 1) + (t + 1) = j by omega] at hbit

theorem getLsbD_iff_div (y : BitVec w) (t : Nat) :
    y.getLsbD t = true ↔ y.toNat / 2 ^ t % 2 = 1 := by
  rw [BitVec.getLsbD, Nat.testBit_eq_decide_div_mod_eq, decide_eq_true_iff]

/-- Strictly between two neighbouring multiples of `p`. -/
theorem between_multiples_iff {p n k : Nat} (hp : 0 < p) :
    k * p < n ∧ n < (k + 1) * p ↔ n / p = k ∧ n % p ≠ 0 := by
  have hn := Nat.div_add_mod' n p
  constructor
  · rintro ⟨hlo, hhi⟩
    have hdiv : n / p = k := Nat.div_eq_of_lt_le hlo.le hhi
    rw [hdiv] at hn
    exact ⟨hdiv, by omega⟩
  · rintro ⟨rfl, hmod⟩
    have hlt := Nat.mod_lt n hp
    rw [Nat.succ_mul]
    omega

/-- The subtree of `x` by `bit` is the multiple `k` of `2^t` and what lies above it, where the marker of `x`
is the multiple `k + 1` before a 0, and `k` before a 1. -/
theorem pathBits_concat_prefix_iff_between {k : Nat} (hx : IsMarker x t) (hy : y ≠ 0#w)
    (hk : k + 1 = x.toNat / 2 ^ t + bit.toNat) :
    pathBits x ++ [bit] <+: pathBits y ↔ k * 2 ^ t < y.toNat ∧ y.toNat < (k + 1) * 2 ^ t := by
  have hodd := (getLsbD_iff_div x t).mp hx.1
  have hbit : y.getLsbD t = bit ↔ y.toNat / 2 ^ t % 2 = bit.toNat := by
    have hiff := getLsbD_iff_div y t
    cases bit with
    | false =>
      rw [← Bool.not_eq_true, hiff, Nat.mod_two_not_eq_one]
      rfl
    | true => exact hiff
  rw [pathBits_concat_prefix_iff hx hy, tzcnt_lt_iff_mod hy (BitVec.lt_of_getLsbD hx.1).le, hbit,
    agree_above_iff_div, between_multiples_iff (Nat.two_pow_pos t)]
  have hle := bit.toNat_le
  omega

/-- Up to its marker a pattern is a multiple of `2^t`. -/
theorem toNat_eq_mul_of_isMarker (hx : IsMarker x t) : x.toNat = x.toNat / 2 ^ t * 2 ^ t := by
  have hmod := (mod_two_pow_eq_zero_iff (BitVec.lt_of_getLsbD hx.1).le).mpr hx.2
  exact (Nat.div_mul_cancel (Nat.dvd_of_mod_eq_zero hmod)).symm

end

/-- Settles O33: the intervals of length `2^t` below and above the node. -/
theorem subtreesAreIntervals : Obligations.SubtreesAreIntervals := by
  unfold Obligations.SubtreesAreIntervals
  intro w x y t hx _ hy
  have hmul := toNat_eq_mul_of_isMarker hx
  have hodd := (getLsbD_iff_div x t).mp hx.1
  have hne : x.toNat / 2 ^ t ≠ 0 := fun hzero => by simp [hzero] at hodd
  obtain ⟨k, hk⟩ := Nat.exists_eq_add_one_of_ne_zero hne
  rw [hk, Nat.succ_mul] at hmul
  constructor
  · rw [pathBits_concat_prefix_iff_between (bit := false) hx hy hk.symm, Nat.succ_mul, hmul,
      Nat.add_sub_cancel]
  · rw [pathBits_concat_prefix_iff_between (bit := true) hx hy rfl, hk, hmul,
      Nat.succ_mul (k + 1), Nat.succ_mul k]

end Sys2Proof.Machine
end

section
/-! The two comparison arithmetics of the float encoder (41_encode.md R96, R97): a product of at most 53
significant bits is not rounded. -/

namespace Sys2Proof.Machine

/-- Where at most 53 bits are significant, the bits that rounding would drop are zeros. -/
theorem roundUnits_mul_two_pow {m : Nat} (hm : m < 2 ^ 53) (e : Nat) :
    roundUnits (m * 2 ^ e) = m * 2 ^ e := by
  rw [roundUnits]
  split
  · rfl
  · next hlen =>
    have hne : m * 2 ^ e ≠ 0 := fun hzero => hlen (by simp [hzero])
    have hlog : (m * 2 ^ e).log2 < 53 + e := by
      rw [Nat.log2_lt hne, pow_add]
      exact Nat.mul_lt_mul_of_pos_right hm (Nat.two_pow_pos e)
    have hdvd : 2 ^ ((m * 2 ^ e).log2 + 1 - 53) ∣ m * 2 ^ e :=
      (pow_dvd_pow 2 (by omega)).mul_left m
    dsimp only
    rw [Nat.mod_eq_zero_of_dvd hdvd, if_pos (.inl (Nat.two_pow_pos _)), Nat.div_mul_cancel hdvd]

/-- Settles O26: the product is its own rounding and does not overflow. -/
theorem fcmpModesAgreeOnExactProducts : Obligations.FcmpModesAgreeOnExactProducts := by
  unfold Obligations.FcmpModesAgreeOnExactProducts
  intro p v m e hproduct hm hlt
  have hround : roundUnits (v * p.den) = v * p.den := hproduct ▸ roundUnits_mul_two_pow hm e
  have hfits : ¬ overflowUnits ≤ v * p.den := by
    rw [overflowUnits, show 1024 + 1074 = 2098 from rfl, not_le]
    exact hlt
  rw [fcmp, fcmp, fcmpRounded, hround, if_neg hfits, fcmpExact]

end Sys2Proof.Machine
end

section
/-! `ENC_FLT` on the unsigned formats (41_encode.md R95): NaN, then the sign, then infinity, else the search. -/

namespace Sys2Proof.Machine

/-- Settles O29: the marker is appended to whatever path the search ends with. -/
theorem encFltNeverZero : Obligations.EncFltNeverZero :=
  fun mode _ v hw => encFlt_ne_zero mode hw v

section
variable {f : UFmt} {s : State}

theorem exec_encFltU (f : UFmt) (hb : s.req.b = 0#64) :
    exec (.encFltU f) s =
      s.answer (if isNan s.req.a then .domainError .fltNan
        else if isNeg s.req.a then .domainError .fltNegative
        else if isInf s.req.a then .domainError .fltInfinite
        else okPattern (encFlt .exact f.width (magUnits s.req.a))) :=
  congrArg s.answer (withFloat_clean s.req hb _)

theorem exec_encFltU_of_finite (f : UFmt) (hb : s.req.b = 0#64) (hsign : fltSign s.req.a = false)
    (hfinite : fltExponent s.req.a ≠ 0x7FF) :
    exec (.encFltU f) s =
      .next (s.ok ((encFlt .exact f.width (magUnits s.req.a)).setWidth 64) 0) := by
  have hneg : isNeg s.req.a = false := hsign
  rw [exec_encFltU f hb, if_neg fun h => hfinite (isNan_iff.mp h).1, hneg,
    if_neg Bool.false_ne_true, if_neg fun h => hfinite (isInf_iff.mp h).1, answer_okPattern]

theorem fltSign_eq_false_iff {a : Word} : fltSign a = false ↔ a.toNat < 2 ^ 63 := by
  rw [Bool.eq_false_iff, ne_eq, fltSign_iff, not_le]

end

/-- Settles O24: the four cases of the operand, by the fields they are written in. -/
theorem encFltUnsigned : Obligations.EncFltUnsigned := by
  unfold Obligations.EncFltUnsigned
  intro f s hb
  simp only [← fltExponent_eq, ← fltFraction_eq, ← fltSign_iff, ← fltSign_eq_false_iff]
  refine ⟨fun he hm => ?_, fun hnan hsign => ?_, fun he hm hsign => ?_, fun he hsign => ?_⟩
  · rw [exec_encFltU f hb, if_pos (isNan_iff.mpr ⟨he, hm⟩)]
    rfl
  · have hneg : isNeg s.req.a = true := hsign
    rw [exec_encFltU f hb, if_neg fun h => hnan (isNan_iff.mp h), if_pos hneg]
    rfl
  · have hneg : isNeg s.req.a = false := hsign
    rw [exec_encFltU f hb, if_neg fun h => (isNan_iff.mp h).2 hm, hneg, if_neg Bool.false_ne_true,
      if_pos (isInf_iff.mpr ⟨he, hm⟩)]
    rfl
  · exact exec_encFltU_of_finite f hb hsign he

end Sys2Proof.Machine
end

section
/-! The float search along any path (41_encode.md R98 to R100). While the nodes of a path lie on the sides of
the operand that its bits say, the search follows it; at its end stands the node with that path, or the node
of the last turn the search has recorded. -/

namespace Sys2Proof.Machine

/-! ### The search after a path -/

/-- The search after the steps that append the bits of `path`; `Search.straight` is the case of equal
bits. -/
def Search.along (path : List Bool) : Search := path.foldl Search.go Search.start

/-- The record kept on the side of `bit`: of the nodes too large, left by a 0, or of those too small, left by
a 1. -/
def Search.record (st : Search) : Bool → Option (Nat × Nat)
  | false => st.upRec
  | true => st.loRec

theorem Search.along_concat (path : List Bool) (bit : Bool) :
    Search.along (path ++ [bit]) = (Search.along path).go bit := by
  rw [along, along, List.foldl_append, List.foldl_cons, List.foldl_nil]

/-- The search and the decoder keep the same bounds. -/
theorem Search.along_bounds (path : List Bool) : (Search.along path).bounds = boundsAlong path :=
  (List.foldl_hom Search.bounds fun st b => by cases b <;> rfl).symm

@[simp] theorem Search.go_k (st : Search) (bit : Bool) : (st.go bit).k = st.k + 1 := by
  cases bit <;> rfl

theorem Search.go_path (st : Search) (bit : Bool) :
    (st.go bit).path = st.path <<< 1 ||| bit.toNat := by
  cases bit <;> simp [go]

/-- A step records the node it leaves, on its own side. -/
theorem Search.go_record (st : Search) (bit b : Bool) :
    (st.go bit).record b = if b = bit then some (st.path, st.k) else st.record b := by
  cases bit <;> cases b <;> rfl

theorem Search.along_k (path : List Bool) : (Search.along path).k = path.length := by
  induction path using List.reverseRecOn with
  | nil => rfl
  | append_singleton path bit ih =>
    rw [along_concat, go_k, ih, List.length_append, List.length_singleton]

/-- The path so far as a number has the last decision at bit 0. -/
theorem Search.testBit_along_path (path : List Bool) (i : Nat) :
    (Search.along path).path.testBit i = path.reverse[i]?.getD false := by
  induction path using List.reverseRecOn generalizing i with
  | nil => simp [along, Search.start]
  | append_singleton path bit ih =>
    rw [along_concat, go_path, List.reverse_append, List.reverse_singleton, List.singleton_append,
      Nat.testBit_or, Nat.testBit_shiftLeft]
    cases i with
    | zero => cases bit <;> rfl
    | succ i =>
      rw [List.getElem?_cons_succ, ← ih]
      cases bit <;> simp [Nat.testBit_succ]

/-! ### The node with a given path -/

/-- The pattern the search emits for a path. -/
def nodeAt (w : Nat) (path : List Bool) : BitVec w := emit w (Search.along path).path path.length

section
variable {w : Nat} {path : List Bool}

theorem getLsbD_emit (w path k i : Nat) :
    (emit w path k).getLsbD i =
      (decide (i < w ∧ w - 1 - k ≤ i) && (path <<< 1 ||| 1).testBit (i - (w - 1 - k))) := by
  rw [emit, BitVec.getLsbD_shiftLeft, BitVec.getLsbD_ofNat]
  grind

/-- Above the appended marker stand the bits of the path. -/
theorem testBit_append_marker_succ (path i : Nat) :
    (path <<< 1 ||| 1).testBit (i + 1) = path.testBit i := by
  rw [Nat.testBit_or, Nat.testBit_shiftLeft]
  simp [Nat.testBit_succ]

theorem isMarker_nodeAt (h : path.length < w) : IsMarker (nodeAt w path) (w - 1 - path.length) := by
  refine ⟨?_, fun j hj => ?_⟩
  · rw [nodeAt, getLsbD_emit, decide_eq_true (by omega), Nat.sub_self, Nat.testBit_zero]
    simp
  · rw [nodeAt, getLsbD_emit, decide_eq_false (by omega), Bool.false_and]

theorem nodeAt_ne_zero (h : path.length < w) : nodeAt w path ≠ 0#w :=
  ne_zero_of_marker (isMarker_nodeAt h).1

theorem pathBits_nodeAt (h : path.length < w) : pathBits (nodeAt w path) = path := by
  obtain ⟨hmark, hlow⟩ := isMarker_nodeAt h
  have hdepth : depth (nodeAt w path) = path.length := by
    rw [depth_eq_of_marker hmark hlow]
    omega
  refine List.ext_getElem? fun j => ?_
  by_cases hj : j < path.length
  · have hplace : w - 1 - j - (w - 1 - path.length) = path.length - 1 - j + 1 := by omega
    have hindex : path.length - 1 - (path.length - 1 - j) = j := by omega
    rw [getElem?_pathBits _ (hdepth ▸ hj), nodeAt, getLsbD_emit, decide_eq_true (by omega),
      Bool.true_and, hplace, testBit_append_marker_succ, Search.testBit_along_path,
      List.getElem?_reverse (by omega), hindex, List.getElem?_eq_getElem hj, Option.getD_some]
  · rw [List.getElem?_eq_none (by rw [length_pathBits]; omega), List.getElem?_eq_none (by omega)]

theorem eq_of_pathBits_eq {x y : BitVec w} (hx : x ≠ 0#w) (hy : y ≠ 0#w)
    (h : pathBits x = pathBits y) : x = y :=
  decodeInjective w x y (by rw [decodeFrac_of_ne hx, decodeFrac_of_ne hy, h])

theorem length_pathBits_lt {x : BitVec w} (hx : x ≠ 0#w) : (pathBits x).length < w := by
  have hdepth := depth_le x
  have hw := (tzcnt_lt hx).pos
  rw [length_pathBits]
  omega

/-- A node is the node with its path. -/
theorem nodeAt_pathBits {x : BitVec w} (hx : x ≠ 0#w) : nodeAt w (pathBits x) = x :=
  eq_of_pathBits_eq (nodeAt_ne_zero (length_pathBits_lt hx)) hx
    (pathBits_nodeAt (length_pathBits_lt hx))

end

/-! ### The record kept on one side -/

/-- `j` is the position of the last `bit` in `path`, or its length where there is none. -/
def LastTurn (bit : Bool) (path : List Bool) (j : Nat) : Prop :=
  (path[j]? = some bit ∧ ∀ k : Nat, j < k → path[k]? ≠ some bit) ∨
    (j = path.length ∧ ∀ k : Nat, path[k]? ≠ some bit)

/-- What is recorded of the last turn: its node, or nothing. -/
theorem Search.along_record (bit : Bool) (path : List Bool) :
    (∃ j, path[j]? = some bit ∧ (∀ k : Nat, j < k → path[k]? ≠ some bit) ∧
      (Search.along path).record bit = some ((Search.along (path.take j)).path, j)) ∨
    ((∀ k : Nat, path[k]? ≠ some bit) ∧ (Search.along path).record bit = none) := by
  induction path using List.reverseRecOn with
  | nil => exact .inr ⟨by simp, by cases bit <;> rfl⟩
  | append_singleton path last ih =>
    rw [along_concat, go_record]
    by_cases hlast : bit = last
    · subst hlast
      refine .inl ⟨path.length, by simp, fun k hk => ?_, ?_⟩
      · rw [List.getElem?_eq_none (by simpa using hk)]
        exact nofun
      · rw [if_pos rfl, List.take_left', along_k]
        rfl
    · have hsame : ∀ k : Nat, (path ++ [last])[k]? = some bit ↔ path[k]? = some bit := by
        intro k
        rw [List.getElem?_append]
        grind
      rw [if_neg hlast]
      simp only [ne_eq, hsame]
      refine ih.imp_left ?_
      rintro ⟨j, hj, hafter, hrecord⟩
      obtain ⟨hlength, -⟩ := List.getElem?_eq_some_iff.mp hj
      exact ⟨j, hj, hafter, by rw [hrecord, List.take_append_of_le_length hlength.le]⟩

/-- The node emitted at the end is the one of the last turn, or the current one (R98, R99). -/
theorem Search.emitRecord_along (w : Nat) (bit : Bool) (path : List Bool) :
    ∃ j, LastTurn bit path j ∧
      (Search.along path).emitRecord w ((Search.along path).record bit) = nodeAt w (path.take j) := by
  rcases Search.along_record bit path with ⟨j, hj, hafter, hrecord⟩ | ⟨hnone, hrecord⟩
  · obtain ⟨hlength, -⟩ := List.getElem?_eq_some_iff.mp hj
    refine ⟨j, .inl ⟨hj, hafter⟩, ?_⟩
    rw [hrecord, emitRecord, nodeAt, List.length_take, min_eq_left hlength.le]
  · refine ⟨path.length, .inr ⟨rfl, hnone⟩, ?_⟩
    rw [hrecord, emitRecord, nodeAt, List.take_length, along_k]

/-! ### The search follows the path of its operand -/

/-- Every node above the end of the path is on the side of the operand that its bit says. -/
def FollowsPath (cmp : Frac → Ordering) (path : List Bool) : Prop :=
  ∀ k bit, path[k]? = some bit → cmp (boundsAlong (path.take k)).mid = sideBefore bit

section
variable {w n : Nat} {cmp : Frac → Ordering} {path : List Bool} {bit : Bool} {st : Search}

theorem FollowsPath.of_concat (h : FollowsPath cmp (path ++ [bit])) :
    FollowsPath cmp path ∧ cmp (boundsAlong path).mid = sideBefore bit := by
  refine ⟨fun k b hk => ?_, ?_⟩
  · obtain ⟨hlength, -⟩ := List.getElem?_eq_some_iff.mp hk
    have hside := h k b (by rwa [List.getElem?_append_left hlength])
    rwa [List.take_append_of_le_length hlength.le] at hside
  · have hside := h path.length bit (by simp)
    rwa [List.take_left'] at hside
    rfl

theorem searchFrom_along (h : FollowsPath cmp path) (m : Nat) :
    searchFrom w cmp (m + path.length) Search.start = searchFrom w cmp m (Search.along path) := by
  induction path using List.reverseRecOn generalizing m with
  | nil => rfl
  | append_singleton path bit ih =>
    obtain ⟨hpath, hside⟩ := h.of_concat
    have hsplit : m + (path ++ [bit]).length = m + 1 + path.length := by
      rw [List.length_append, List.length_singleton]
      omega
    rw [hsplit, ih hpath, searchFrom_succ_of_side, Search.along_concat]
    rwa [Search.along_bounds]

/-- A hit ends the search, before or at its last comparison. -/
theorem searchFrom_of_hit (h : cmp st.bounds.mid = .eq) :
    searchFrom w cmp n st = emit w st.path st.k := by
  cases n with
  | zero => rw [searchFrom_zero, Search.finish, h]
  | succ n => rw [searchFrom_succ, h]

theorem finish_of_side (h : cmp st.bounds.mid = sideBefore bit) :
    st.finish w cmp = st.emitRecord w (st.record bit) := by
  cases bit with
  | false => exact finish_of_gt h
  | true => exact finish_of_lt h

end

section
variable {w v : Nat} {path : List Bool} {bit : Bool}

/-- The search ends at the node that equals the operand. -/
theorem encFlt_of_hit (h : FollowsPath (fcmp .exact · v) path) (hlength : path.length ≤ w - 1)
    (hhit : fcmp .exact (boundsAlong path).mid v = .eq) : encFlt .exact w v = nodeAt w path := by
  have hsearch := searchFrom_along (w := w) h (w - 1 - path.length)
  have hend : fcmp .exact (Search.along path).bounds.mid v = .eq := by rwa [Search.along_bounds]
  rw [Nat.sub_add_cancel hlength] at hsearch
  rw [encFlt, hsearch, searchFrom_of_hit hend, Search.along_k, nodeAt]

/-- Without a hit the search ends at the last turn it took on the side of its leaf. -/
theorem encFlt_of_leaf (h : FollowsPath (fcmp .exact · v) path) (hlength : path.length = w - 1)
    (hside : fcmp .exact (boundsAlong path).mid v = sideBefore bit) :
    ∃ j, LastTurn bit path j ∧ encFlt .exact w v = nodeAt w (path.take j) := by
  have hsearch := searchFrom_along (w := w) h 0
  obtain ⟨j, hj, hrecord⟩ := Search.emitRecord_along w bit path
  rw [Nat.zero_add, hlength, searchFrom_zero, finish_of_side, hrecord] at hsearch
  · exact ⟨j, hj, hsearch⟩
  · rwa [Search.along_bounds]

end

/-! ### The rounding rule (R100) -/

theorem exists_sideBefore {o : Ordering} (h : o ≠ .eq) : ∃ bit, o = sideBefore bit := by
  cases o with
  | lt => exact ⟨true, rfl⟩
  | eq => exact absurd rfl h
  | gt => exact ⟨false, rfl⟩

theorem sideBefore_injective : ∀ b c, sideBefore b = sideBefore c → b = c := by decide

theorem sideBefore_eq_lt_iff (bit : Bool) : sideBefore bit = .lt ↔ bit = true := by
  cases bit <;> decide

/-- A path is followed where its ones are the nodes below the operand, and no node equals it. -/
theorem followsPath_of_iff {cmp : Frac → Ordering} {path : List Bool}
    (h : ∀ k < path.length, cmp (boundsAlong (path.take k)).mid ≠ .eq ∧
      (path[k]? = some true ↔ cmp (boundsAlong (path.take k)).mid = .lt)) : FollowsPath cmp path := by
  intro k bit hk
  obtain ⟨hlength, -⟩ := List.getElem?_eq_some_iff.mp hk
  obtain ⟨hne, hiff⟩ := h k hlength
  obtain ⟨b, hb⟩ := exists_sideBefore hne
  rw [hk, hb, sideBefore_eq_lt_iff, Option.some.injEq] at hiff
  rw [hb, Bool.eq_iff_iff.mpr hiff]

/-- On a path that is followed, the bits and the sides of the operand say the same. -/
theorem FollowsPath.side_eq_iff {cmp : Frac → Ordering} {path : List Bool} {bit : Bool} {k : Nat}
    (h : FollowsPath cmp path) (hk : k < path.length) :
    cmp (boundsAlong (path.take k)).mid = sideBefore bit ↔ path[k]? = some bit := by
  refine ⟨fun hside => ?_, h k bit⟩
  have hbit := List.getElem?_eq_getElem hk
  rw [h k _ hbit] at hside
  rw [hbit, sideBefore_injective _ _ hside]

/-- Settles O30: the last turn on the leaf's side is the deepest ancestor there, and a hit ends the search. -/
theorem encFltRoundsToLeafSide : Obligations.EncFltRoundsToLeafSide := by
  unfold Obligations.EncFltRoundsToLeafSide
  intro w v path hw mid side
  refine ⟨fun hlength hpath hside => ?_, fun hlength hpath hside => ?_⟩
  · have hfollows : FollowsPath (fcmp .exact · v) path := followsPath_of_iff (hlength ▸ hpath)
    have hleaf : side (w - 1) = fcmp .exact (boundsAlong path).mid v := by
      simp only [side, mid, List.take_of_length_le hlength.le]
    obtain ⟨bit, hbit⟩ := exists_sideBefore hside
    obtain ⟨j, hturn, hencode⟩ := encFlt_of_leaf hfollows hlength (hleaf ▸ hbit)
    have hsides : ∀ k < w - 1, side k = side (w - 1) ↔ path[k]? = some bit := fun k hk => by
      rw [hbit]
      exact hfollows.side_eq_iff (hlength ▸ hk)
    have hdepth : (path.take j).length < w := by
      rw [List.length_take]
      omega
    rw [hencode]
    refine ⟨nodeAt_ne_zero hdepth, j, pathBits_nodeAt hdepth, ?_⟩
    rcases hturn with ⟨hj, hafter⟩ | ⟨rfl, hnone⟩
    · obtain ⟨hjlength, -⟩ := List.getElem?_eq_some_iff.mp hj
      have hjw : j < w - 1 := hlength ▸ hjlength
      exact .inl ⟨hjw, (hsides j hjw).mpr hj, fun k hjk hk => (hsides k hk).not.mpr (hafter k hjk)⟩
    · exact .inr ⟨hlength, fun k hk => (hsides k hk).not.mpr (hnone k)⟩
  · have hdepth : path.length < w := by omega
    have hhit : fcmp .exact (boundsAlong path).mid v = .eq := by
      simpa only [side, mid, List.take_length] using hside
    rw [encFlt_of_hit (followsPath_of_iff hpath) hlength hhit]
    exact ⟨nodeAt_ne_zero hdepth, pathBits_nodeAt hdepth⟩

end Sys2Proof.Machine
end

section
/-! An operand that equals a node encodes to that node (41_encode.md R102 item 2): the nodes above it are on
the sides that its path says, because the tree is ordered. -/

namespace Sys2Proof.Machine

section
variable {a : Word} {w : Nat} {x : BitVec w}

/-- The operand is the fraction `q`: comparing with it is comparing two fractions. -/
theorem fcmp_exact_of_value {q : Frac} (hq : 0 < q.den) (h : floatMagnitude a = q.toRat) (p : Frac) :
    fcmp .exact p (magUnits a) = compare (p.num * q.den) (q.num * p.den) := by
  have hden : (0 : ℚ) < q.den := by exact_mod_cast hq
  have hprod : q.toRat * p.den * q.den = ((q.num * p.den : ℕ) : ℚ) := by
    rw [mul_right_comm, Frac.toRat, div_mul_cancel₀ _ hden.ne', Nat.cast_mul]
  calc fcmp .exact p (magUnits a)
      = cmp (p.num : ℚ) (q.toRat * p.den) := by rw [fcmp_exact_eq_compare, h, cmp_eq_compare]
    _ = cmp ((p.num : ℚ) * q.den) (q.toRat * p.den * q.den) := (cmp_mul_pos_right hden _ _).symm
    _ = cmp ((p.num * q.den : ℕ) : ℚ) ((q.num * p.den : ℕ) : ℚ) := by rw [hprod, Nat.cast_mul p.num]
    _ = cmp (p.num * q.den) (q.num * p.den) := Nat.strictMono_cast.cmp_map_eq _ _
    _ = compare (p.num * q.den) (q.num * p.den) := cmp_eq_compare _ _

theorem take_concat_prefix {path : List Bool} {k : Nat} {bit : Bool} (h : path[k]? = some bit) :
    path.take k ++ [bit] <+: path := by
  have htake : path.take (k + 1) = path.take k ++ [bit] := by
    rw [List.take_add_one, h, Option.toList_some]
  exact htake ▸ List.take_prefix _ _

/-- The node is left of those its path leaves by a 0, and right of those it leaves by a 1. -/
theorem followsPath_pathBits (hx : x ≠ 0#w) (h : floatMagnitude a = (decodeFrac x).toRat) :
    FollowsPath (fcmp .exact · (magUnits a)) (pathBits x) := by
  intro k bit hk
  have hprefix := take_concat_prefix hk
  dsimp only
  rw [fcmp_exact_of_value (den_decodeFrac_pos x) h, decodeFrac_of_ne hx]
  cases bit with
  | false =>
    exact compare_gt_iff_gt.mpr ((Frac.below_iff _ _).mp (boundsAlong_mid_below_of_left hprefix))
  | true =>
    exact compare_lt_iff_lt.mpr ((Frac.below_iff _ _).mp (boundsAlong_mid_below_of_right hprefix))

theorem encFlt_of_value (hx : x ≠ 0#w) (h : floatMagnitude a = patternValue x) :
    encFlt .exact w (magUnits a) = x := by
  rw [patternValue_eq_toRat_decodeFrac] at h
  have hlength := Nat.le_sub_one_of_lt (length_pathBits_lt hx)
  have hhit : fcmp .exact (boundsAlong (pathBits x)).mid (magUnits a) = .eq := by
    rw [fcmp_exact_of_value (den_decodeFrac_pos x) h, decodeFrac_of_ne hx]
    exact compare_eq_iff_eq.mpr rfl
  rw [encFlt_of_hit (followsPath_pathBits hx h) hlength hhit, nodeAt_pathBits hx]

end

/-- Settles O28: the search finds the node. -/
theorem encFltExactRoundTrip : Obligations.EncFltExactRoundTrip := by
  unfold Obligations.EncFltExactRoundTrip
  intro f x s hx hb hsign hfinite hvalue
  rw [exec_encFltU_of_finite f hb hsign hfinite, encFlt_of_value hx hvalue]

end Sys2Proof.Machine
end

section
/-! The corner cases of `ENC_FLT` on the unsigned formats (41_encode.md R101): operands beyond, between and on
the last nodes of the two edges of the tree. -/

namespace Sys2Proof.Machine

/-! ### Searches along an edge -/

section
variable {w v : Nat} {bit : Bool}

theorem followsPath_replicate {cmp : Frac → Ordering} {n : Nat}
    (h : ∀ k < n, cmp (boundsAlong (List.replicate k bit)).mid = sideBefore bit) :
    FollowsPath cmp (List.replicate n bit) := by
  intro k b hk
  rw [List.getElem?_replicate] at hk
  split at hk
  · next hkn =>
    cases hk
    rw [List.take_replicate, min_eq_left hkn.le]
    exact h k hkn
  · cases hk

/-- The last node of the edge is on the side of all the others: the search ends one node before it. -/
theorem encFlt_of_edge (hw : 2 ≤ w)
    (h : ∀ k ≤ w - 1, fcmp .exact (boundsAlong (List.replicate k bit)).mid v = sideBefore bit) :
    encFlt .exact w v = nodeAt w (List.replicate (w - 1 - 1) bit) := by
  obtain ⟨j, hturn, hencode⟩ := encFlt_of_leaf
    (followsPath_replicate fun k hk => h k hk.le) (List.length_replicate ..) (h _ le_rfl)
  rw [hencode, List.take_replicate]
  rcases hturn with ⟨hj, hafter⟩ | ⟨-, hnone⟩
  · obtain ⟨hjlength, -⟩ := List.getElem?_eq_some_iff.mp hj
    rw [List.length_replicate] at hjlength
    have hlast : ¬ j + 1 < w - 1 := fun hlt => hafter (j + 1) j.lt_succ_self (by simp [hlt])
    rw [show min j (w - 1) = w - 1 - 1 by omega]
  · exact absurd (List.getElem?_replicate_of_lt (by omega)) (hnone 0)

/-- The last node of the edge is alone on its side: the search ends there. -/
theorem encFlt_of_edge_turn
    (h : ∀ k < w - 1, fcmp .exact (boundsAlong (List.replicate k bit)).mid v = sideBefore bit)
    (hlast : fcmp .exact (boundsAlong (List.replicate (w - 1) bit)).mid v = sideBefore (!bit)) :
    encFlt .exact w v = nodeAt w (List.replicate (w - 1) bit) := by
  obtain ⟨j, hturn, hencode⟩ := encFlt_of_leaf
    (followsPath_replicate h) (List.length_replicate ..) hlast
  rw [hencode]
  rcases hturn with ⟨hj, -⟩ | ⟨rfl, -⟩
  · rw [List.getElem?_replicate] at hj
    split at hj
    · exact absurd (Option.some.inj hj).symm (Bool.not_ne_self bit)
    · cases hj
  · rw [List.take_length]

/-- The node at the end of a straight path has equal bits above its marker. -/
theorem nodeAt_replicate {t : Nat} {x : BitVec w} (ht : IsMarker x t)
    (habove : ∀ j, t < j → j < w → x.getLsbD j = bit) :
    nodeAt w (List.replicate (w - 1 - t) bit) = x := by
  rw [← pathBits_eq_replicate ht.1 ht.2 habove, nodeAt_pathBits (ne_zero_of_marker ht.1)]

end

/-! ### The four open ranges of R101, at every width -/

section
variable {a : Word} {w n : Nat}

theorem fcmp_left_edge_lt (h : 1 < floatMagnitude a * (n + 1)) :
    fcmp .exact (boundsAlong (List.replicate n false)).mid (magUnits a) = .lt := by
  rw [boundsAlong_replicate_false, fcmp_exact_eq_compare, compare_lt_iff_lt]
  simpa using h

/-- The nodes of the left edge down to depth `n` are above an operand below the last of them. -/
theorem fcmp_left_edge_of_le {k : Nat} (h : floatMagnitude a * n < 1) (hk : k + 1 ≤ n) :
    fcmp .exact (boundsAlong (List.replicate k false)).mid (magUnits a) = .gt := by
  refine fcmp_left_edge ((mul_le_mul_of_nonneg_left ?_ (floatMagnitude_nonneg a)).trans_lt h)
  exact_mod_cast hk

/-- The nodes of the right edge down to depth `n` are below an operand above the last of them. -/
theorem fcmp_right_edge_of_le {k : Nat} (h : n < floatMagnitude a) (hk : k + 1 ≤ n) :
    fcmp .exact (boundsAlong (List.replicate k true)).mid (magUnits a) = .lt := by
  refine fcmp_right_edge_lt (lt_of_le_of_lt ?_ h)
  exact_mod_cast hk

/-- Below 1/W: the pattern 2, which is 1/(W − 1). -/
theorem encFlt_of_lt_inv (hw : 2 ≤ w) (h : floatMagnitude a * w < 1) :
    encFlt .exact w (magUnits a) = BitVec.twoPow w 1 := by
  rw [encFlt_of_edge (bit := false) hw fun k hk => fcmp_left_edge_of_le h (by omega)]
  refine nodeAt_replicate ⟨by simp [show 1 < w by omega], fun j hj => ?_⟩ fun j hj _ => ?_
  · simp [hj.ne']
  · simp [hj.ne]

/-- Above 1/W and below 1/(W − 1): the pattern 1, which is 1/W. -/
theorem encFlt_of_inv_between (hw : 1 ≤ w) (hlo : 1 < floatMagnitude a * w)
    (hhi : floatMagnitude a * (w - 1 : ℕ) < 1) : encFlt .exact w (magUnits a) = 1#w := by
  have hlast : fcmp .exact (boundsAlong (List.replicate (w - 1) false)).mid (magUnits a) = .lt :=
    fcmp_left_edge_lt (by rwa [← Nat.cast_succ, Nat.succ_eq_add_one, Nat.sub_add_cancel hw])
  rw [encFlt_of_edge_turn (bit := false) (fun k hk => fcmp_left_edge_of_le hhi hk) hlast]
  refine nodeAt_replicate (t := 0) ⟨by simp [show 0 < w by omega], fun j hj => absurd hj j.not_lt_zero⟩
    fun j hj _ => ?_
  simp [hj.ne']

/-- Above W − 1 and below W: all ones, which is W/1. -/
theorem encFlt_of_between (hw : 1 ≤ w) (hlo : (w - 1 : ℕ) < floatMagnitude a)
    (hhi : floatMagnitude a < w) : encFlt .exact w (magUnits a) = BitVec.allOnes w := by
  have hlast : fcmp .exact (boundsAlong (List.replicate (w - 1) true)).mid (magUnits a) = .gt :=
    fcmp_right_edge_gt (by rwa [← Nat.cast_succ, Nat.succ_eq_add_one, Nat.sub_add_cancel hw])
  rw [encFlt_of_edge_turn (bit := true) (fun k hk => fcmp_right_edge_of_le hlo hk) hlast]
  refine nodeAt_replicate (t := 0) ⟨by simp [show 0 < w by omega], fun j hj => absurd hj j.not_lt_zero⟩
    fun j _ hj => ?_
  simp [hj]

/-- Above W: ones over one zero, which is (W − 1)/1. -/
theorem encFlt_of_gt (hw : 2 ≤ w) (h : w < floatMagnitude a) :
    encFlt .exact w (magUnits a) = BitVec.allOnes w <<< 1 := by
  rw [encFlt_of_edge (bit := true) hw fun k hk => fcmp_right_edge_of_le h (by omega)]
  refine nodeAt_replicate ⟨by simp [show 1 < w by omega], fun j hj => ?_⟩ fun j hj hjw => ?_
  · simp [hj]
  · simp [hjw, show j ≠ 0 by omega]

/-! ### The two closed cases -/

/-- The value 1/W is that of the pattern 1. -/
theorem patternValue_one (hw : 0 < w) : patternValue (1#w) = 1 / w := by
  rw [patternValue_eq_toRat_decodeFrac, decodeFrac_one hw, Frac.toRat, Nat.cast_one]

theorem patternValue_encInt (h : n ≤ w) : patternValue (encInt w n) = n := by
  rw [patternValue_eq_toRat_decodeFrac, decodeFrac_encInt h, Frac.toRat, Nat.cast_one, div_one]

theorem encFlt_of_integer (hn : 1 ≤ n) (h : n ≤ w) (hvalue : floatMagnitude a = n) :
    encFlt .exact w (magUnits a) = encInt w n :=
  encFlt_of_value (ne_zero_of_marker (isMarker_encInt hn h).1)
    (hvalue.trans (patternValue_encInt h).symm)

theorem encFlt_of_inv_le (hw : 1 ≤ w) (hlo : 1 ≤ floatMagnitude a * w)
    (hhi : floatMagnitude a * (w - 1 : ℕ) < 1) : encFlt .exact w (magUnits a) = 1#w := by
  rcases hlo.lt_or_eq with hlt | heq
  · exact encFlt_of_inv_between hw hlt hhi
  · have hcast : (w : ℚ) ≠ 0 := by exact_mod_cast (Nat.one_le_iff_ne_zero.mp hw)
    refine encFlt_of_value (ne_zero_of_marker (t := 0) (by simp [show 0 < w by omega])) ?_
    rw [patternValue_one hw, eq_div_iff hcast, heq]

end

/-- Settles O27: five ranges of the operand, and the pattern of each as a result of the format. -/
theorem encFltCornerCases : Obligations.EncFltCornerCases := by
  unfold Obligations.EncFltCornerCases
  intro f s hb hsign hfinite v W
  have hwidth := UFmt.eight_le_width f
  have hW : 0 < W := Nat.cast_pos.mpr (by omega)
  have hpred : W - 1 = (f.width - 1 : ℕ) := (Nat.cast_pred (by omega)).symm
  have hW1 : 0 < W - 1 := hpred ▸ Nat.cast_pos.mpr (by omega)
  rw [exec_encFltU_of_finite f hb hsign hfinite]
  refine ⟨fun h => ?_, fun hlo hhi => ?_, fun n hn hle h => ?_, fun hlo hhi => ?_, fun h => ?_⟩
  · rw [encFlt_of_lt_inv (by omega) ((lt_div_iff₀ hW).mp h)]
    cases f <;> rfl
  · rw [lt_div_iff₀ hW1, hpred] at hhi
    rw [encFlt_of_inv_le (by omega) ((div_le_iff₀ hW).mp hlo) hhi]
    cases f <;> rfl
  · rw [encFlt_of_integer hn hle h]
  · rw [encFlt_of_between (by omega) (hpred ▸ hlo) hhi]
  · rw [encFlt_of_gt (by omega) h]

end Sys2Proof.Machine
end
